-- ==== Sys2Proof/Config.lean ====
section
/-! DEFINITION. The constants of the algorithm, the parameters of one engine, and the values the
spec leaves free (spec/00_scope.md R5, R7; spec/93_implementation_defined.md I3). -/

namespace Sys2Proof.Config

/-- `ROUNDS` (R5): fixed at 90. -/
def rounds : Nat := 90

/-- `MAX_LIST_SIZE` (R5): 2^40, the largest list size a PERMUTE accepts. -/
def maxListSize : Nat := 2 ^ 40

/-- `LOG2_MAX_LIST`, the field of `PARAMS` that restates `MAX_LIST_SIZE` (R23). -/
def log2MaxList : Nat := 40

/-- The value of the `ID` register (R2, R22). -/
def idValue : BitVec 32 := 0x534F4E31#32

/-- `SEED_CAP` of the default engine (R7): 256 bytes. -/
def defaultSeedCap : Nat := 256

/-- The legal values of `SEED_CAP` (R7): a multiple of 4 in [32, 1024]. -/
def legalSeedCap (cap : Nat) : Bool :=
  decide (cap % 4 = 0) && decide (32 ≤ cap) && decide (cap ≤ 1024)

/-- The bytes of the register window (R20, R70), which are also the alignment of `BASE` (R7). -/
def windowBytes : Nat := 4096

/-- The FREE VALUE of the 4096-byte page at which the platform places the engine of `State.reset`:
`BASE` is "any 4096-byte-aligned bus address", OPEN (R7, D3, I15). It has no body, so nothing can be
proved of it. Log entry 14. -/
opaque platformPage : Nat

/-- The FREE VALUE of seed byte `k` after the hardware reset number `d`: "each byte that has not
been written since reset is an independent free draw in 0..255" (I3, R34, R281). It has no body, so
nothing can be proved of it; every statement holds whatever it is. Log entry 3. -/
opaque seedDraw (d k : Nat) : BitVec 8

end Sys2Proof.Config
end

