-- ==== Sys2Proof/Word.lean ====
section
/-! DEFINITION. The word types of the engine (spec/00_scope.md R8, R9; spec/20_memory.md R80). -/

namespace Sys2Proof

/-- A byte of a byte string, of the seed buffer or of a digest (R11). -/
abbrev Byte := BitVec 8

/-- The 32-bit data word of a transaction and of every register (R20, R80). -/
abbrev Word := BitVec 32

/-- A byte offset in the 4096-byte register space (R20, R70). -/
abbrev Offset := BitVec 12

/-- A 256-bit digest as the digest query port answers it: digest byte `k` sits at bits
`[8k+7:8k]` (R103). -/
abbrev Digest := BitVec 256

end Sys2Proof
end

