-- ==== Sys2Proof/Syntax.lean ====
section
/-! DEFINITION. The instructions: one constructor per row of spec/opcode_table.json
(spec/30_encoding.md R110), with the register names of spec/10_state.md R20, the two frame formats
that carry an instruction (R100), and the outcomes a decoder can give (R102, R103, R105). -/

namespace Sys2Proof

/-- The mapped registers of the register space (R20). `digest k` is `DIGESTk`; `seed j` is the word
of the SEED window at offset `0x100 + 4j` (R34), mapped when `4j < SEED_CAP`. -/
inductive Reg where
  | id | params | ctrl | status
  | indexLo | indexHi | listSizeLo | listSizeHi
  | seedLen | resultLo | resultHi
  | irqEn | irqStatus | busErr
  | digest (k : Fin 8)
  | seed (j : BitVec 8)
  deriving DecidableEq, Repr

/-- The instructions of the engine, in the order of the opcode table. The `wr…` constructors carry
the 32-bit write data; `dqPivot` and `dqSource` carry the `RND` and `BLK` fields of `DQ42`. -/
inductive Instr where
  /-- `RD`: read a mapped register (R201). -/
  | rd (r : Reg)
  /-- `WR_INDEX_LO` (R202). -/
  | wrIndexLo (data : Word)
  /-- `WR_INDEX_HI` (R202). -/
  | wrIndexHi (data : Word)
  /-- `WR_LIST_SIZE_LO` (R203). -/
  | wrListSizeLo (data : Word)
  /-- `WR_LIST_SIZE_HI` (R203). -/
  | wrListSizeHi (data : Word)
  /-- `WR_SEED_LEN` (R204). -/
  | wrSeedLen (data : Word)
  /-- `WR_IRQ_EN` (R211). -/
  | wrIrqEn (data : Word)
  /-- `WR_IRQ_STATUS`, the `ack` (R212). -/
  | wrIrqStatus (data : Word)
  /-- `WR_SEED`: word `j` of the SEED window (R205). -/
  | wrSeed (j : BitVec 8) (data : Word)
  /-- `NOP` (R206). -/
  | nop
  /-- `PERMUTE` (R163). -/
  | permute
  /-- `HASH` (R140). -/
  | hash
  /-- `SOFT_RESET` (R207). -/
  | softReset
  /-- `DQ_HOST` (R136). -/
  | dqHost
  /-- `DQ_PIVOT` of round `rnd` (R137). -/
  | dqPivot (rnd : Byte)
  /-- `DQ_SOURCE` of round `rnd` and block `blk` (R138). -/
  | dqSource (rnd : Byte) (blk : Word)
  deriving DecidableEq, Repr

/-- The causes of a bus error (R241). -/
inductive BusCause where
  | misaligned | unmapped | readOnly | illegalValue | busy
  deriving DecidableEq, Repr

/-- The number of bytes of a host bus transaction, `size ∈ {1, 2, 4}` (R72). -/
inductive AccessSize where
  | one | two | four
  deriving DecidableEq, Repr

/-- A host bus transaction as its master issues it, at a bus address (R72). The width of a bus address
is the platform's, so an address is a number. -/
inductive BusAccess where
  /-- `MemRead` of `size` bytes at `addr`. -/
  | read (addr : Nat) (size : AccessSize)
  /-- `MemWrite` of `size` bytes at `addr`. -/
  | write (addr : Nat) (size : AccessSize) (data : Word)
  deriving DecidableEq, Repr

/-- The fields of a `TD48` transaction descriptor (R102). -/
structure Descriptor where
  w : Bool
  sz : BitVec 2
  rsv : Bool
  off : Offset
  data : Word
  deriving DecidableEq, Repr

/-- The fields of a `DQ42` digest query (R103). -/
structure Query where
  kind : BitVec 2
  rnd : Byte
  blk : Word
  deriving DecidableEq, Repr

/-- A framed instruction: a 48-bit transaction descriptor on the host bus, or a 42-bit request on
the digest query port (R100). -/
inductive Frame where
  | td48 (w : BitVec 48)
  | dq42 (w : BitVec 42)
  deriving DecidableEq, Repr

/-- Why a frame spells nothing: the first three for `TD48` (R102, I9), the others for `DQ42`
(R103, I8). -/
inductive FrameError where
  | sizeCode | reservedBit | readData
  | queryKind | queryHostFields | queryPivotBlock
  deriving DecidableEq, Repr

/-- What a decoder reads from a frame: an instruction, a transaction that the decoding itself
rejects with a bus error (R105), or a frame that spells nothing. -/
inductive Decoded where
  | instr (i : Instr)
  | busError (cause : BusCause) (off : Offset) (w : Bool)
  | invalid (why : FrameError)
  deriving DecidableEq, Repr

end Sys2Proof
end

