-- ==== Sys2Proof/WellFormed.lean ====
section
/-! DEFINITION. The checks an instruction passes to be one the engine is given: the register it
names is mapped (spec/10_state.md R34, R35) and a query's round is one the controller issues
(spec/30_encoding.md R103). -/

namespace Sys2Proof

/-- Word `j` of the SEED window is mapped when `0x100 + 4j < 0x100 + SEED_CAP` (R34, R35). -/
def seedMapped (cap : Nat) (j : BitVec 8) : Bool := decide (4 * j.toNat < cap)

/-- A register is mapped, given the engine's `SEED_CAP` (R20, R35). -/
def Reg.mapped (cap : Nat) : Reg → Bool
  | .seed j => seedMapped cap j
  | _ => true

/-- The checks on an instruction, given the engine's `SEED_CAP`. -/
def Instr.wellFormed (cap : Nat) : Instr → Bool
  | .rd r => r.mapped cap
  | .wrSeed j _ => seedMapped cap j
  | .dqPivot rnd => decide (rnd.toNat < 90)
  | .dqSource rnd _ => decide (rnd.toNat < 90)
  | .wrIndexLo _ | .wrIndexHi _ | .wrListSizeLo _ | .wrListSizeHi _ | .wrSeedLen _
  | .wrIrqEn _ | .wrIrqStatus _ | .nop | .permute | .hash | .softReset | .dqHost => true

end Sys2Proof
end

