-- ==== Sys2Proof/Decode.lean ====
section
/-! DEFINITION. The decoders of the three formats, total on every word, and the encoder written from
the same tables (spec/30_encoding.md R100 to R110). -/

namespace Sys2Proof

/-! ### The fields of the two frames -/

/-- The fields of a `TD48` word (R102). -/
def descriptorOfBits (b : BitVec 48) : Descriptor :=
  { w := b.getLsbD 47
    sz := b.extractLsb' 45 2
    rsv := b.getLsbD 44
    off := b.extractLsb' 32 12
    data := b.extractLsb' 0 32 }

/-- The `TD48` word of a descriptor (R102). -/
def descriptorBits (d : Descriptor) : BitVec 48 :=
  BitVec.ofBool d.w ++ d.sz ++ BitVec.ofBool d.rsv ++ d.off ++ d.data

/-- The fields of a `DQ42` word (R103). -/
def queryOfBits (b : BitVec 42) : Query :=
  { kind := b.extractLsb' 40 2
    rnd := b.extractLsb' 32 8
    blk := b.extractLsb' 0 32 }

/-- The `DQ42` word of a query (R103). -/
def queryBits (q : Query) : BitVec 42 := q.kind ++ q.rnd ++ q.blk

/-! ### The window at `BASE` -/

/-- `off = addr − BASE` of an address in `[BASE, BASE + 4096)` (R72); `none` is an address outside the
window, which the platform decodes and which never reaches the engine (R83). -/
def windowOffset (base addr : Nat) : Option Offset :=
  if base ≤ addr ∧ addr < base + Config.windowBytes then some (BitVec.ofNat 12 (addr - base))
  else none

/-- The bus address of a transaction (R72). -/
def BusAccess.addr : BusAccess → Nat
  | .read addr _ => addr
  | .write addr _ _ => addr

/-- The number of bytes of a transaction (R72). -/
def AccessSize.bytes : AccessSize → Nat
  | .one => 1
  | .two => 2
  | .four => 4

/-- `SZ`, log2 of the size (R102). -/
def AccessSize.code : AccessSize → BitVec 2
  | .one => 0#2
  | .two => 1#2
  | .four => 2#2

/-- The `TD48` fields of a transaction at an offset of the window (R72, R102). -/
def busDescriptor (a : BusAccess) (off : Offset) : Descriptor :=
  match a with
  | .read _ size => ⟨false, size.code, false, off, 0#32⟩
  | .write _ size data => ⟨true, size.code, false, off, data⟩

/-- The `TD48` word as which a transaction reaches the engine at `base`, if it reaches it (R72, R83). -/
def busWord (base : Nat) (a : BusAccess) : Option (BitVec 48) :=
  (windowOffset base a.addr).map fun off => descriptorBits (busDescriptor a off)

/-! ### The register map -/

/-- The offset of a register (R20). -/
def regOffset : Reg → Offset
  | .id => 0x000#12
  | .params => 0x004#12
  | .ctrl => 0x008#12
  | .status => 0x00C#12
  | .indexLo => 0x010#12
  | .indexHi => 0x014#12
  | .listSizeLo => 0x018#12
  | .listSizeHi => 0x01C#12
  | .seedLen => 0x020#12
  | .resultLo => 0x024#12
  | .resultHi => 0x028#12
  | .irqEn => 0x02C#12
  | .irqStatus => 0x030#12
  | .busErr => 0x034#12
  | .digest k => BitVec.ofNat 12 (0x040 + 4 * k.val)
  | .seed j => BitVec.ofNat 12 (0x100 + 4 * j.toNat)

/-- The register at an aligned offset of an engine with `SEED_CAP = cap`; `none` is an unmapped
offset (R20, R35). -/
def regOfOffset (cap : Nat) (off : Offset) : Option Reg :=
  if off = 0x000#12 then some .id
  else if off = 0x004#12 then some .params
  else if off = 0x008#12 then some .ctrl
  else if off = 0x00C#12 then some .status
  else if off = 0x010#12 then some .indexLo
  else if off = 0x014#12 then some .indexHi
  else if off = 0x018#12 then some .listSizeLo
  else if off = 0x01C#12 then some .listSizeHi
  else if off = 0x020#12 then some .seedLen
  else if off = 0x024#12 then some .resultLo
  else if off = 0x028#12 then some .resultHi
  else if off = 0x02C#12 then some .irqEn
  else if off = 0x030#12 then some .irqStatus
  else if off = 0x034#12 then some .busErr
  else if 0x040 ≤ off.toNat ∧ off.toNat < 0x060 then
    some (.digest (Fin.ofNat 8 ((off.toNat - 0x040) / 4)))
  else if 0x100 ≤ off.toNat ∧ off.toNat < 0x100 + cap then
    some (.seed (BitVec.ofNat 8 ((off.toNat - 0x100) / 4)))
  else none

/-! ### Decoding -/

/-- `CMD32`, the data of a `CTRL` write: the four legal words, and `none` for a reserved code or a
nonzero `RSV` field (R101, R106). -/
def decodeCommand (data : Word) : Option Instr :=
  if data.extractLsb' 4 28 ≠ 0#28 then none
  else if data.extractLsb' 0 4 = 0#4 then some .nop
  else if data.extractLsb' 0 4 = 1#4 then some .permute
  else if data.extractLsb' 0 4 = 2#4 then some .hash
  else if data.extractLsb' 0 4 = 3#4 then some .softReset
  else none

/-- Lines 4 to 6 of R105: a write to a mapped register. -/
def decodeWrite (r : Reg) (off : Offset) (data : Word) : Decoded :=
  match r with
  | .ctrl =>
    match decodeCommand data with
    | some i => .instr i
    | none => .busError .illegalValue off true
  | .indexLo => .instr (.wrIndexLo data)
  | .indexHi => .instr (.wrIndexHi data)
  | .listSizeLo => .instr (.wrListSizeLo data)
  | .listSizeHi => .instr (.wrListSizeHi data)
  | .seedLen => .instr (.wrSeedLen data)
  | .irqEn => .instr (.wrIrqEn data)
  | .irqStatus => .instr (.wrIrqStatus data)
  | .seed j => .instr (.wrSeed j data)
  | .id | .params | .status | .resultLo | .resultHi | .busErr | .digest _ =>
    .busError .readOnly off true

/-- A legal access has size 4 (`SZ = 2`) and an offset that is a multiple of 4 (R73). -/
def descriptorAligned (d : Descriptor) : Bool :=
  d.sz == 2#2 && d.off.extractLsb' 0 2 == 0#2

/-- Why a descriptor spells no transaction, if it spells none (R102, I9). -/
def descriptorError (d : Descriptor) : Option FrameError :=
  if d.sz = 3#2 then some .sizeCode
  else if d.rsv then some .reservedBit
  else if d.w = false ∧ d.data ≠ 0#32 then some .readData
  else none

/-- The decoding of a descriptor by the first matching line of R105, after the descriptors that
spell no transaction are refused (R102). -/
def decodeDescriptor (cap : Nat) (d : Descriptor) : Decoded :=
  match descriptorError d with
  | some e => .invalid e
  | none =>
    if descriptorAligned d then
      match regOfOffset cap d.off with
      | none => .busError .unmapped d.off d.w
      | some r => if d.w then decodeWrite r d.off d.data else .instr (.rd r)
    else .busError .misaligned d.off d.w

/-- The decoding of a digest query (R103, R110): kind 3 is reserved, a HOST query has all its other
fields 0, a PIVOT query has its `BLK` field 0. -/
def decodeQuery (q : Query) : Decoded :=
  if q.kind = 0#2 then
    if q.rnd = 0#8 ∧ q.blk = 0#32 then .instr .dqHost else .invalid .queryHostFields
  else if q.kind = 1#2 then
    if q.blk = 0#32 then .instr (.dqPivot q.rnd) else .invalid .queryPivotBlock
  else if q.kind = 2#2 then .instr (.dqSource q.rnd q.blk)
  else .invalid .queryKind

/-- The decoding of a frame by an engine with `SEED_CAP = cap`: the format alone gives the width
(R100). -/
def decode (cap : Nat) : Frame → Decoded
  | .td48 w => decodeDescriptor cap (descriptorOfBits w)
  | .dq42 w => decodeQuery (queryOfBits w)

/-! ### Encoding -/

/-- The descriptor of a register read (R108, `rd NAME`). -/
def readFrame (r : Reg) : Frame :=
  .td48 (descriptorBits ⟨false, 2#2, false, regOffset r, 0#32⟩)

/-- The descriptor of a register write (R108, `wr NAME, v`). -/
def writeFrame (r : Reg) (data : Word) : Frame :=
  .td48 (descriptorBits ⟨true, 2#2, false, regOffset r, data⟩)

/-- The frame of an instruction (R102, R103, R108, R110). -/
def encode : Instr → Frame
  | .rd r => readFrame r
  | .wrIndexLo data => writeFrame .indexLo data
  | .wrIndexHi data => writeFrame .indexHi data
  | .wrListSizeLo data => writeFrame .listSizeLo data
  | .wrListSizeHi data => writeFrame .listSizeHi data
  | .wrSeedLen data => writeFrame .seedLen data
  | .wrIrqEn data => writeFrame .irqEn data
  | .wrIrqStatus data => writeFrame .irqStatus data
  | .wrSeed j data => writeFrame (.seed j) data
  | .nop => writeFrame .ctrl 0#32
  | .permute => writeFrame .ctrl 1#32
  | .hash => writeFrame .ctrl 2#32
  | .softReset => writeFrame .ctrl 3#32
  | .dqHost => .dq42 (queryBits ⟨0#2, 0#8, 0#32⟩)
  | .dqPivot rnd => .dq42 (queryBits ⟨1#2, rnd, 0#32⟩)
  | .dqSource rnd blk => .dq42 (queryBits ⟨2#2, rnd, blk⟩)

/-! ### A row of the opcode table as a word -/

/-- The instruction a decoding gives, if it gives one. -/
def decodedInstr : Decoded → Option Instr
  | .instr i => some i
  | _ => none

/-- The frame of a word of the opcode table. A `TD48` word has 48 bits. A `DQ42` word has 42 bits,
which are 48 in whole bytes too: a 48-bit word is read as `DQ42` when it fits 42 bits and spells a
query there. No `TD48` row is so read, since each of them has bit 46 set. Log entry 5. -/
def tableFrame (nbits w : Nat) : Frame :=
  if nbits < 48 then .dq42 (BitVec.ofNat 42 w)
  else if w < 2 ^ 42 ∧ (decodedInstr (decodeQuery (queryOfBits (BitVec.ofNat 42 w)))).isSome then
    .dq42 (BitVec.ofNat 42 w)
  else .td48 (BitVec.ofNat 48 w)

/-- The instruction the decoder of the default engine reads from a word of the opcode table. -/
def decodeTableWord (nbits w : Nat) : Option Instr :=
  decodedInstr (decode Config.defaultSeedCap (tableFrame nbits w))

end Sys2Proof
end

