-- ==== Sys2Proof/Machine/State.lean ====
section
/-! DEFINITION. The state of the engine: every register of spec/10_state.md R20 to R35, every
internal element of R50, and the model's own fields (what the bus presents, what the engine
answers, which agent moves next); and the state after reset (spec/70_reset_and_hazards.md R281). -/

namespace Sys2Proof.Machine

/-- The controller's sequencing state `int.phase` (R50, R52). -/
inductive Phase where
  | idle | pivot | source | hash
  deriving DecidableEq, Repr

/-- The agents that have steps (R15): the host, one bus transaction a step, and the round
controller, one engine step a step. The hash unit has no step of its own. -/
inductive Agent where
  | host | controller
  deriving DecidableEq, Repr

/-- What arrives at the engine from outside, one at a time (R15, R70, R253, R280). -/
inductive Event where
  /-- A host bus transaction at its bus address, as the platform's bus presents it (R7, R72, R83). -/
  | access (a : BusAccess)
  /-- A host bus transaction of the engine's window, as its `TD48` descriptor, whose offset is already
  relative to `BASE` (R72, R102). -/
  | transaction (w : BitVec 48)
  /-- A request placed on the digest query port, as its `DQ42` word (R103). In the engine only the
  controller issues queries, inside its own steps; this event is the model's way to run a `DQ_…`
  row of the opcode table by itself (log entry 6). -/
  | query (w : BitVec 42)
  /-- The reset input is asserted and released (R280). -/
  | reset
  deriving DecidableEq, Repr

/-- The response code of a transaction (R72). -/
inductive Resp where
  | okay | slverr
  deriving DecidableEq, Repr

/-- What a transaction returns: data and response for a read, the response for a write (R72). -/
inductive BusResponse where
  | read (data : Word) (resp : Resp)
  | write (resp : Resp)
  deriving DecidableEq, Repr

/-- The fields of `STATUS` (R25). The bits no field names are reserved and read 0 (R21). -/
structure Status where
  busy : Bool
  done : Bool
  err : Bool
  errcode : BitVec 4
  round : BitVec 7
  op : BitVec 2
  deriving DecidableEq, Repr

/-- The fields of `BUSERR` (R32). -/
structure BusErr where
  offset : Offset
  cause : BitVec 3
  write : Bool
  valid : Bool
  deriving DecidableEq, Repr

/-- Reasons the machine stops with a fault. -/
inductive Fault where
  /-- Raised by a controller step in phase PIVOT or SOURCE with `int.round` above 89, which is none
  of the positions R52 lists and for which R170 and R171 enable no step. Safe: the hardware is never
  in such a state (the invariant of Sys2Proof/Safety.lean rules it out), and the model stops. -/
  | controllerOutOfRounds
  deriving DecidableEq, Repr

/-- Reasons the model gives no step. -/
inductive Refusal where
  /-- Raised by an arm of `exec` whose instruction has no meaning yet; no arm is. Safe. -/
  | notModelled (mnemonic : String)
  /-- Raised by a frame that spells no transaction or no query (R102, R103, I8, I9: "refuse").
  Safe: such a frame has no counterpart on the bus or on the port. -/
  | spellsNothing (why : FrameError)
  /-- Raised by a step of an engine whose `SEED_CAP` is outside its legal set (R7, I15: "refuse").
  Safe: there is no such engine. -/
  | illFormedEngine
  deriving DecidableEq, Repr

/-- The state of one engine. -/
structure State where
  /-- The engine's parameter `BASE`, hard-wired, as its 4096-byte page: `BASE = 4096 · basePage`, so
  that every value is one R7 allows and every one R7 allows is a value (R7, R20, R83). -/
  basePage : Nat
  /-- The engine's parameter `SEED_CAP`, hard-wired and read in `PARAMS` (R7, R23). -/
  seedCap : Nat
  /-- `STATUS` (R25). -/
  status : Status
  /-- `INDEX[31:0]` (R26). -/
  indexLo : Word
  /-- `INDEX[63:32]` (R26). -/
  indexHi : Word
  /-- `LIST_SIZE[31:0]` (R27). -/
  listSizeLo : Word
  /-- `LIST_SIZE[63:32]` (R27). -/
  listSizeHi : Word
  /-- `SEED_LEN.LEN` (R28). -/
  seedLen : BitVec 11
  /-- `RESULT[31:0]` (R29). -/
  resultLo : Word
  /-- `RESULT[63:32]` (R29). -/
  resultHi : Word
  /-- `IRQ_EN.EN` (R30). -/
  irqEn : Bool
  /-- `IRQ_STATUS.PEND` (R31). -/
  irqPend : Bool
  /-- `BUSERR` (R32). -/
  busErr : BusErr
  /-- `DIGEST0` to `DIGEST7`, the digest file (R33, R54). -/
  digest : Vector Word 8
  /-- The seed buffer, byte `k` at position `k`; it holds `SEED_CAP` bytes (R34, R54). -/
  seed : List Byte
  /-- `int.phase` (R50, R52). -/
  phase : Phase
  /-- `int.round` (R50, R52). -/
  round : BitVec 7
  /-- `int.widx`, the working index (R50). -/
  widx : BitVec 40
  /-- `int.n`, the latched list size (R50). -/
  n : BitVec 41
  /-- `int.pivot` (R50). -/
  pivot : BitVec 40
  /-- `int.flip` (R50). -/
  flip : BitVec 40
  /-- `int.pos` (R50). -/
  pos : BitVec 40
  /-- The MODEL's own: the response to the last transaction (R72), `none` before the first. -/
  busResp : Option BusResponse
  /-- The MODEL's own: the last answer on the digest query port (R103, R134). -/
  dqAnswer : Digest
  /-- The MODEL's own: what is still to arrive from outside, in order (R85). -/
  events : List Event
  /-- The MODEL's own: which agent takes each of the next steps (R15, I12). -/
  schedule : List Agent
  /-- The MODEL's own: the number of hardware resets so far, which names the seed buffer's draws
  (I3). -/
  resets : Nat
  deriving DecidableEq, Repr

/-- `STATUS` with every field 0 (R281). -/
def Status.zero : Status :=
  { busy := false, done := false, err := false, errcode := 0#4, round := 0#7, op := 0#2 }

/-- `BUSERR` with every field 0 (R281). -/
def BusErr.zero : BusErr := { offset := 0#12, cause := 0#3, write := false, valid := false }

/-- The seed buffer right after the hardware reset number `resets`: every byte a free draw (R281,
I3). -/
def drawnSeed (cap resets : Nat) : List Byte := (List.range cap).map (Config.seedDraw resets)

/-- The state right after the hardware reset number `resets` of an engine with `BASE = 4096 · page`
and `SEED_CAP = cap` (R7, R281), with nothing yet to arrive. -/
def State.afterReset (page cap resets : Nat) : State :=
  { basePage := page
    seedCap := cap
    status := Status.zero
    indexLo := 0#32, indexHi := 0#32, listSizeLo := 0#32, listSizeHi := 0#32
    seedLen := 0#11
    resultLo := 0#32, resultHi := 0#32
    irqEn := false, irqPend := false
    busErr := BusErr.zero
    digest := Vector.replicate 8 0#32
    seed := drawnSeed cap resets
    phase := .idle
    round := 0#7, widx := 0#40, n := 0#41, pivot := 0#40, flip := 0#40, pos := 0#40
    busResp := none
    dqAnswer := 0#256
    events := []
    schedule := []
    resets := resets }

/-- The default engine right after its first reset (R281), wherever the platform places it. -/
def State.reset : State := State.afterReset Config.platformPage Config.defaultSeedCap 0

end Sys2Proof.Machine
end

