-- ==== Sys2Proof/Machine/Flags.lean ====
section
/-! DEFINITION. The flags: the words of `STATUS`, `BUSERR`, `IRQ_EN` and `IRQ_STATUS`, the updates
of `STATUS`, and the interrupt output (spec/10_state.md R25, R30 to R32, R53; spec/60_exceptions.md
R243, R251). -/

namespace Sys2Proof.Machine

/-- The `STATUS` word (R25); reserved bits 31:18, 15 and 3 are 0 (R21). -/
def Status.word (t : Status) : Word :=
  0#14 ++ t.op ++ 0#1 ++ t.round ++ t.errcode ++ 0#1 ++ BitVec.ofBool t.err ++
    BitVec.ofBool t.done ++ BitVec.ofBool t.busy

/-- The `BUSERR` word (R32); reserved bits 30:16 are 0. -/
def BusErr.word (b : BusErr) : Word :=
  BitVec.ofBool b.valid ++ 0#15 ++ BitVec.ofBool b.write ++ b.cause ++ b.offset

/-- A register with the one field bit 0, as `IRQ_EN` (R30) and `IRQ_STATUS` (R31). -/
def flagWord (b : Bool) : Word := 0#31 ++ BitVec.ofBool b

/-- The code of a bus error cause, `BUSERR.CAUSE` (R32, R241). -/
def causeCode : BusCause → BitVec 3
  | .misaligned => 1#3
  | .unmapped => 2#3
  | .readOnly => 3#3
  | .illegalValue => 4#3
  | .busy => 5#3

/-- The operation errors (R243). -/
inductive OpError where
  | invalidIndex | listTooLarge
  deriving DecidableEq, Repr

/-- The code of an operation error, `STATUS.ERRCODE` (R243). -/
def opErrorCode : OpError → BitVec 4
  | .invalidIndex => 1#4
  | .listTooLarge => 2#4

/-- `STATUS.OP` of a PERMUTE (R25). -/
def opPermute : BitVec 2 := 1#2

/-- `STATUS.OP` of a HASH (R25). -/
def opHash : BitVec 2 := 2#2

/-- `STATUS` at an acceptance that sets it whole (R140, R163). -/
def acceptedStatus (op : BitVec 2) (busy : Bool) : Status :=
  { busy := busy, done := false, err := false, errcode := 0#4, round := 0#7, op := op }

/-- `STATUS` after a precondition failure of PERMUTE (R245). -/
def failedStatus (e : OpError) : Status :=
  { busy := false, done := true, err := true, errcode := opErrorCode e, round := 0#7,
    op := opPermute }

/-- The change of `STATUS` at a completion (R141, R175). -/
def completedStatus (t : Status) : Status := { t with busy := false, done := true }

/-- The interrupt output `irq = IRQ_EN.EN ∧ IRQ_STATUS.PEND` (R251). -/
def State.irq (s : State) : Bool := s.irqEn && s.irqPend

end Sys2Proof.Machine
end

