-- ==== Sys2Proof/Machine/Bytes.lean ====
section
/-! DEFINITION. Byte strings and byte order (spec/00_scope.md R11, spec/20_memory.md R74 to R79,
spec/40_hash.md R131). -/

namespace Sys2Proof.Machine

/-- `u8(v)`: the round number as one byte (R11, R76). -/
def u8 (v : Nat) : List Byte := [BitVec.ofNat 8 v]

/-- `u32le(v)`: the block index as four bytes, least significant first (R11, R77). -/
def u32le (v : Nat) : List Byte :=
  [BitVec.ofNat 8 v, BitVec.ofNat 8 (v >>> 8), BitVec.ofNat 8 (v >>> 16), BitVec.ofNat 8 (v >>> 24)]

/-- `Σ s[k] · 256^k`: a byte string read little-endian (R11, R78). -/
def leNat : List Byte → Nat
  | [] => 0
  | b :: rest => b.toNat + 256 * leNat rest

/-- `be32(s)`: a word from four bytes, most significant first (R131). -/
def be32 (s : List Byte) : Word :=
  s.getD 0 0#8 ++ s.getD 1 0#8 ++ s.getD 2 0#8 ++ s.getD 3 0#8

/-- `be32bytes(w)`, the inverse of `be32` (R131). -/
def be32bytes (w : Word) : List Byte :=
  [w.extractLsb' 24 8, w.extractLsb' 16 8, w.extractLsb' 8 8, w.extractLsb' 0 8]

/-- `be64(v)`: eight bytes, most significant first (R131). -/
def be64 (v : Nat) : List Byte :=
  [56, 48, 40, 32, 24, 16, 8, 0].map fun k => BitVec.ofNat 8 (v >>> k)

/-- Byte lane `k` of a data word: bits `[8k+7:8k]` (R74). -/
def lane (w : Word) (k : Nat) : Byte := w.extractLsb' (8 * k) 8

/-- The word whose byte lanes 0 to 3 are the four bytes (R74). -/
def ofLanes (b0 b1 b2 b3 : Byte) : Word := b3 ++ b2 ++ b1 ++ b0

/-- Digest byte `k`: bits `[8k+7:8k]` of the port's answer (R103). -/
def digestByte (d : Digest) (k : Nat) : Byte := d.extractLsb' (8 * k) 8

/-- The digest whose bytes are the byte string, byte `k` at bits `[8k+7:8k]` (R103). -/
def digestOfBytes (s : List Byte) : Digest := BitVec.ofNat 256 (leNat s)

/-- The word `DIGESTk` of a digest: bytes `4k` to `4k+3`, byte `4k` in lane 0 (R33). -/
def digestWord (d : Digest) (k : Nat) : Word :=
  ofLanes (digestByte d (4 * k)) (digestByte d (4 * k + 1)) (digestByte d (4 * k + 2))
    (digestByte d (4 * k + 3))

/-- `LE_uint64(d[0:8])`: the first 8 digest bytes read little-endian (R78). -/
def digestLow64 (d : Digest) : Nat := leNat ((List.range 8).map (digestByte d))

end Sys2Proof.Machine
end

