-- ==== Sys2Proof/Machine/Operands.lean ====
section
/-! DEFINITION. The operand forms: how the operations assemble their operands from the registers
(spec/30_encoding.md R104). -/

namespace Sys2Proof.Machine

/-- `INDEX = {INDEX_HI, INDEX_LO}` (R26, R75, R104). -/
def State.index (s : State) : BitVec 64 := s.indexHi ++ s.indexLo

/-- `LIST_SIZE = {LIST_SIZE_HI, LIST_SIZE_LO}` (R27, R75, R104). -/
def State.listSize (s : State) : BitVec 64 := s.listSizeHi ++ s.listSizeLo

/-- `RESULT = {RESULT_HI, RESULT_LO}` (R29, R75, R104). -/
def State.result (s : State) : BitVec 64 := s.resultHi ++ s.resultLo

/-- `SEEDSTR = SEED[0 : SEED_LEN]` (R28, R104). -/
def State.seedStr (s : State) : List Byte := s.seed.take s.seedLen.toNat

/-- `BLK = p[39:8]` of a 40-bit position (R104, R167). -/
def blockIndex (p : BitVec 40) : BitVec 32 := p.extractLsb' 8 32

/-- The byte offset `p[7:3]` of a position (R104, R168). -/
def byteOffset (p : BitVec 40) : BitVec 5 := p.extractLsb' 3 5

/-- The bit select `p[2:0]` of a position (R104, R169). -/
def bitSelect (p : BitVec 40) : BitVec 3 := p.extractLsb' 0 3

/-- `RND = zext_8(int.round)` (R104). -/
def State.rnd (s : State) : Byte := s.round.setWidth 8

end Sys2Proof.Machine
end

