-- ==== Sys2Proof/Machine/Ops.lean ====
section
/-! DEFINITION. The shared operations: responding to a transaction, reporting a bus error (the
engine's exception, spec/60_exceptions.md R240) and an operation error (R245), reading the registers
(spec/42_host_access.md R201), the seed buffer, and the two resets. There is no return from an error:
"No return-from-error action exists or is needed" (R248). -/

namespace Sys2Proof.Machine

/-- `BASE`, the bus address of the register space (R7, R20). -/
def State.base (s : State) : Nat := Config.windowBytes * s.basePage

/-- The response to the current transaction (R72). -/
def respond (r : BusResponse) (s : State) : State := { s with busResp := some r }

/-- The OKAY response of a write. -/
def okWrite (s : State) : State := respond (.write .okay) s

/-- The response to a rejected access: SLVERR, with data 0 for a read (R240). -/
def errorResponse (w : Bool) : BusResponse := if w then .write .slverr else .read 0#32 .slverr

/-- `BUSERR` after a rejected access (R240). -/
def busErrOf (cause : BusCause) (off : Offset) (w : Bool) : BusErr :=
  { offset := off, cause := causeCode cause, write := w, valid := true }

/-- `raise BusError(cause, off, w)`, the whole effect of a rejected access (R240, R247). -/
def raiseBusError (cause : BusCause) (off : Offset) (w : Bool) (s : State) : State :=
  respond (errorResponse w) { s with busErr := busErrOf cause off w }

/-- `fail OpError(e)`, the whole effect of a precondition failure of PERMUTE (R245). -/
def failOpError (e : OpError) (s : State) : State :=
  okWrite { s with status := failedStatus e, irqPend := true }

/-- `BusError(BUSY)` on a write to a protected register or a command while an operation runs, else
the write (R200, R241). -/
def unlessBusy (off : Offset) (s write : State) : State :=
  if s.status.busy then raiseBusError .busy off true s else write

/-! ### The seed buffer -/

/-- `SEED[k]` (R34). -/
def readSeed (s : State) (k : Nat) : Byte := s.seed.getD k 0#8

/-- The word of the SEED window at offset `0x100 + 4j` (R34). -/
def seedWord (s : State) (j : BitVec 8) : Word :=
  ofLanes (readSeed s (4 * j.toNat)) (readSeed s (4 * j.toNat + 1)) (readSeed s (4 * j.toNat + 2))
    (readSeed s (4 * j.toNat + 3))

/-- `SEED[4j+k] <- data[8k+7:8k]` for `k = 0..3` (R205). -/
def writeSeedWord (j : BitVec 8) (data : Word) (s : State) : State :=
  { s with
    seed := (((s.seed.set (4 * j.toNat) (lane data 0)).set (4 * j.toNat + 1) (lane data 1)).set
      (4 * j.toNat + 2) (lane data 2)).set (4 * j.toNat + 3) (lane data 3) }

/-! ### Reading the registers -/

/-- `PARAMS = (40 << 20) | (SEED_CAP << 8) | 90` (R23). -/
def paramsWord (cap : Nat) : Word :=
  (BitVec.ofNat 32 Config.log2MaxList <<< 20) ||| (BitVec.ofNat 32 cap <<< 8) |||
    BitVec.ofNat 32 Config.rounds

/-- `ReadValue(off)`: the current value of a register as R22 to R34 give it (R201). -/
def readValue (r : Reg) (s : State) : Word :=
  match r with
  | .id => Config.idValue
  | .params => paramsWord s.seedCap
  | .ctrl => 0#32
  | .status => s.status.word
  | .indexLo => s.indexLo
  | .indexHi => s.indexHi
  | .listSizeLo => s.listSizeLo
  | .listSizeHi => s.listSizeHi
  | .seedLen => s.seedLen.setWidth 32
  | .resultLo => s.resultLo
  | .resultHi => s.resultHi
  | .irqEn => flagWord s.irqEn
  | .irqStatus => flagWord s.irqPend
  | .busErr => s.busErr.word
  | .digest k => s.digest[k]
  | .seed j => seedWord s j

/-! ### Legal values -/

/-- `Legal` for `SEED_LEN`: `data[31:11] = 0 ∧ data[10:0] ≤ SEED_CAP` (R28, R204). -/
def legalSeedLen (cap : Nat) (data : Word) : Bool :=
  data.extractLsb' 11 21 == 0#21 && decide ((data.extractLsb' 0 11).toNat ≤ cap)

/-- `Legal` for `IRQ_EN` and `IRQ_STATUS`: `data[31:1] = 0` (R211, R212). -/
def legalFlag (data : Word) : Bool := data.extractLsb' 1 31 == 0#31

/-! ### The two resets -/

/-- Hardware reset: every element takes its reset value and the seed buffer is drawn anew (R280,
R281). What is still to arrive from outside is not part of the engine and stays. -/
def hardwareReset (s : State) : State :=
  { State.afterReset s.basePage s.seedCap (s.resets + 1) with events := s.events, schedule := s.schedule }

/-- SOFT_RESET: every register of R20 and every element of R50 takes its reset value, the seed
buffer keeps its bytes (R207, R283). -/
def clearAllButSeed (s : State) : State :=
  { State.afterReset s.basePage s.seedCap s.resets with
    seed := s.seed, events := s.events, schedule := s.schedule }

end Sys2Proof.Machine
end

