-- ==== Sys2Proof/Machine/HostAccess.lean ====
section
/-! DEFINITION. The meanings of the register reads and writes and of the commands NOP and SOFT_RESET
(spec/42_host_access.md R200 to R212). Each takes its checks in the order of R200. -/

namespace Sys2Proof.Machine

/-- `RD` (R201). A read of an unmapped SEED window word is the UNMAPPED access of R35. -/
def execRd (r : Reg) (s : State) : Host.Outcome State Fault Refusal :=
  .next (if r.mapped s.seedCap then respond (.read (readValue r s) .okay) s
    else raiseBusError .unmapped (regOffset r) false s)

/-- `WR_INDEX_LO` (R202). -/
def execWrIndexLo (data : Word) (s : State) : Host.Outcome State Fault Refusal :=
  .next (unlessBusy (regOffset .indexLo) s (okWrite { s with indexLo := data }))

/-- `WR_INDEX_HI` (R202). -/
def execWrIndexHi (data : Word) (s : State) : Host.Outcome State Fault Refusal :=
  .next (unlessBusy (regOffset .indexHi) s (okWrite { s with indexHi := data }))

/-- `WR_LIST_SIZE_LO` (R203). -/
def execWrListSizeLo (data : Word) (s : State) : Host.Outcome State Fault Refusal :=
  .next (unlessBusy (regOffset .listSizeLo) s (okWrite { s with listSizeLo := data }))

/-- `WR_LIST_SIZE_HI` (R203). -/
def execWrListSizeHi (data : Word) (s : State) : Host.Outcome State Fault Refusal :=
  .next (unlessBusy (regOffset .listSizeHi) s (okWrite { s with listSizeHi := data }))

/-- `WR_SEED_LEN`: legality first, then busy (R204). -/
def execWrSeedLen (data : Word) (s : State) : Host.Outcome State Fault Refusal :=
  .next (if legalSeedLen s.seedCap data then
      unlessBusy (regOffset .seedLen) s (okWrite { s with seedLen := data.extractLsb' 0 11 })
    else raiseBusError .illegalValue (regOffset .seedLen) true s)

/-- `WR_IRQ_EN`, never BUSY (R211). -/
def execWrIrqEn (data : Word) (s : State) : Host.Outcome State Fault Refusal :=
  .next (if legalFlag data then okWrite { s with irqEn := data.getLsbD 0 }
    else raiseBusError .illegalValue (regOffset .irqEn) true s)

/-- `WR_IRQ_STATUS`, the `ack`: writing 1 clears `PEND`, writing 0 leaves it; never BUSY (R212). -/
def execWrIrqStatus (data : Word) (s : State) : Host.Outcome State Fault Refusal :=
  .next (if legalFlag data then
      okWrite { s with irqPend := if data.getLsbD 0 then false else s.irqPend }
    else raiseBusError .illegalValue (regOffset .irqStatus) true s)

/-- `WR_SEED` (R205). A word at or above `SEED_CAP` is the UNMAPPED access of R35. -/
def execWrSeed (j : BitVec 8) (data : Word) (s : State) : Host.Outcome State Fault Refusal :=
  .next (if seedMapped s.seedCap j then
      unlessBusy (regOffset (.seed j)) s (okWrite (writeSeedWord j data s))
    else raiseBusError .unmapped (regOffset (.seed j)) true s)

/-- `NOP`: an OKAY response and no other effect, busy or not (R206). -/
def execNop (s : State) : Host.Outcome State Fault Refusal := .next (okWrite s)

/-- `SOFT_RESET`: legal while busy; a running operation is abandoned (R207). -/
def execSoftReset (s : State) : Host.Outcome State Fault Refusal :=
  .next (okWrite (clearAllButSeed s))

end Sys2Proof.Machine
end

