-- ==== Sys2Proof/Machine/Sha256.lean ====
section
/-! DEFINITION. The hash primitive, SHA-256 (spec/40_hash.md R130 to R133). -/

namespace Sys2Proof.Machine

/-- The eight working words `a` to `h`, and the chaining value `H[0]` to `H[7]` (R131). -/
structure HashWords where
  (a b c d e f g h : Word)
  deriving DecidableEq, Repr

/-- `ROTR(x, n)` (R132). -/
def rotr (x : Word) (n : Nat) : Word := (x >>> n) ||| (x <<< (32 - n))

/-- `Ch` (R132). -/
def shaCh (e f g : Word) : Word := (e &&& f) ^^^ (~~~e &&& g)

/-- `Maj` (R132). -/
def shaMaj (a b c : Word) : Word := (a &&& b) ^^^ (a &&& c) ^^^ (b &&& c)

/-- `S0` (R132). -/
def shaS0 (a : Word) : Word := rotr a 2 ^^^ rotr a 13 ^^^ rotr a 22

/-- `S1` (R132). -/
def shaS1 (e : Word) : Word := rotr e 6 ^^^ rotr e 11 ^^^ rotr e 25

/-- `s0` (R132). -/
def shas0 (x : Word) : Word := rotr x 7 ^^^ rotr x 18 ^^^ (x >>> 3)

/-- `s1` (R132). -/
def shas1 (x : Word) : Word := rotr x 17 ^^^ rotr x 19 ^^^ (x >>> 10)

/-- The initial chaining value `H0` (R133). -/
def shaH0 : HashWords :=
  ⟨0x6a09e667#32, 0xbb67ae85#32, 0x3c6ef372#32, 0xa54ff53a#32,
   0x510e527f#32, 0x9b05688c#32, 0x1f83d9ab#32, 0x5be0cd19#32⟩

/-- The round constants `K[0]` to `K[63]` (R133). -/
def shaK : List Word :=
  [0x428a2f98#32, 0x71374491#32, 0xb5c0fbcf#32, 0xe9b5dba5#32, 0x3956c25b#32, 0x59f111f1#32, 0x923f82a4#32, 0xab1c5ed5#32,
   0xd807aa98#32, 0x12835b01#32, 0x243185be#32, 0x550c7dc3#32, 0x72be5d74#32, 0x80deb1fe#32, 0x9bdc06a7#32, 0xc19bf174#32,
   0xe49b69c1#32, 0xefbe4786#32, 0x0fc19dc6#32, 0x240ca1cc#32, 0x2de92c6f#32, 0x4a7484aa#32, 0x5cb0a9dc#32, 0x76f988da#32,
   0x983e5152#32, 0xa831c66d#32, 0xb00327c8#32, 0xbf597fc7#32, 0xc6e00bf3#32, 0xd5a79147#32, 0x06ca6351#32, 0x14292967#32,
   0x27b70a85#32, 0x2e1b2138#32, 0x4d2c6dfc#32, 0x53380d13#32, 0x650a7354#32, 0x766a0abb#32, 0x81c2c92e#32, 0x92722c85#32,
   0xa2bfe8a1#32, 0xa81a664b#32, 0xc24b8b70#32, 0xc76c51a3#32, 0xd192e819#32, 0xd6990624#32, 0xf40e3585#32, 0x106aa070#32,
   0x19a4c116#32, 0x1e376c08#32, 0x2748774c#32, 0x34b0bcb5#32, 0x391c0cb3#32, 0x4ed8aa4a#32, 0x5b9cca4f#32, 0x682e6ff3#32,
   0x748f82ee#32, 0x78a5636f#32, 0x84c87814#32, 0x8cc70208#32, 0x90befffa#32, 0xa4506ceb#32, 0xbef9a3f7#32, 0xc67178f2#32]

/-- The number of zero bytes of padding, `(55 - L) mod 64` with the non-negative `mod` of R10
(R131). -/
def shaPadLength (len : Nat) : Nat := ((55 - (len : Int)) % 64).toNat

/-- The padded message `mp` (R131). -/
def shaPad (m : List Byte) : List Byte :=
  m ++ [0x80#8] ++ List.replicate (shaPadLength m.length) 0#8 ++ be64 (8 * m.length)

/-- The first `k` blocks of 64 bytes, in order (R131). -/
def shaBlocks : Nat → List Byte → List (List Byte)
  | 0, _ => []
  | k + 1, mp => mp.take 64 :: shaBlocks k (mp.drop 64)

/-- The next word of the message schedule from the earlier ones, newest first (R131). -/
def shaNextWord (ws : List Word) : Word :=
  shas1 (ws.getD 1 0#32) + ws.getD 6 0#32 + shas0 (ws.getD 14 0#32) + ws.getD 15 0#32

/-- `k` more words of the message schedule, newest first (R131). -/
def shaExtend : Nat → List Word → List Word
  | 0, ws => ws
  | k + 1, ws => shaExtend k (shaNextWord ws :: ws)

/-- The message schedule `W[0]` to `W[63]` of a block (R131). -/
def shaSchedule (block : List Byte) : List Word :=
  (shaExtend 48 ((List.range 16).map fun t => be32 (block.drop (4 * t))).reverse).reverse

/-- One round with its constant and its schedule word (R131). -/
def shaRound (r : HashWords) (kw : Word × Word) : HashWords :=
  let t1 := r.h + shaS1 r.e + shaCh r.e r.f r.g + kw.1 + kw.2
  let t2 := shaS0 r.a + shaMaj r.a r.b r.c
  ⟨t1 + t2, r.a, r.b, r.c, r.d + t1, r.e, r.f, r.g⟩

/-- The chaining value after a block (R131). -/
def shaCompress (hs : HashWords) (block : List Byte) : HashWords :=
  let r := (shaK.zip (shaSchedule block)).foldl shaRound hs
  ⟨hs.a + r.a, hs.b + r.b, hs.c + r.c, hs.d + r.d, hs.e + r.e, hs.f + r.f, hs.g + r.g, hs.h + r.h⟩

/-- The 32 digest bytes of a chaining value (R131). -/
def hashBytes (r : HashWords) : List Byte :=
  be32bytes r.a ++ be32bytes r.b ++ be32bytes r.c ++ be32bytes r.d ++
    be32bytes r.e ++ be32bytes r.f ++ be32bytes r.g ++ be32bytes r.h

/-- `SHA256(m)` as the byte string of R131. Irreducible for the elaborator, which would otherwise run
it when it compares two states; the kernel evaluates it. -/
@[irreducible] def sha256Bytes (m : List Byte) : List Byte :=
  hashBytes ((shaBlocks ((shaPad m).length / 64) (shaPad m)).foldl shaCompress shaH0)

/-- `SHA256(m)` as the 256-bit answer of the digest query port (R103, R131). -/
@[irreducible] def sha256 (m : List Byte) : Digest := digestOfBytes (sha256Bytes m)

end Sys2Proof.Machine
end

