-- ==== Sys2Proof/Machine/Hash.lean ====
section
/-! DEFINITION. The digest query subsystem and the HASH command (spec/40_hash.md R134 to R141). -/

namespace Sys2Proof.Machine

/-! ### The messages of the three kinds of query (R134) -/

/-- The message of a HOST query: `SEEDSTR`. -/
def hostMessage (s : State) : List Byte := s.seedStr

/-- The message of a PIVOT query: `SEEDSTR ‖ u8(r)`. -/
def pivotMessage (rnd : Byte) (s : State) : List Byte := s.seedStr ++ u8 rnd.toNat

/-- The message of a SOURCE query: `SEEDSTR ‖ u8(r) ‖ u32le(b)`. -/
def sourceMessage (rnd : Byte) (blk : Word) (s : State) : List Byte :=
  s.seedStr ++ u8 rnd.toNat ++ u32le blk.toNat

/-- The hash unit answers a query: the digest of its message on the port, and nothing else (R134,
R135). -/
def answer (m : List Byte) (s : State) : State := { s with dqAnswer := sha256 m }

/-! ### The queries -/

/-- `DQ_HOST` (R136). -/
def execDqHost (s : State) : Host.Outcome State Fault Refusal := .next (answer (hostMessage s) s)

/-- `DQ_PIVOT` (R137). -/
def execDqPivot (rnd : Byte) (s : State) : Host.Outcome State Fault Refusal :=
  .next (answer (pivotMessage rnd s) s)

/-- `DQ_SOURCE` (R138). -/
def execDqSource (rnd : Byte) (blk : Word) (s : State) : Host.Outcome State Fault Refusal :=
  .next (answer (sourceMessage rnd blk s) s)

/-! ### The HASH command -/

/-- `HASH`, acceptance (R140). -/
def execHash (s : State) : Host.Outcome State Fault Refusal :=
  .next (unlessBusy (regOffset .ctrl) s
    (okWrite { s with status := acceptedStatus opHash true, phase := .hash, round := 0#7 }))

/-- The eight words `DIGEST0` to `DIGEST7` of a digest (R33, R141). -/
def digestWords (d : Digest) : Vector Word 8 :=
  #v[digestWord d 0, digestWord d 1, digestWord d 2, digestWord d 3,
     digestWord d 4, digestWord d 5, digestWord d 6, digestWord d 7]

/-- What HASH completion writes once its query is answered (R141). -/
def completeHash (s : State) : State :=
  { s with
    digest := digestWords s.dqAnswer
    status := completedStatus s.status
    irqPend := true
    phase := .idle }

/-- HASH completion, the controller step of phase HASH: one HOST query and its use (R141). -/
def hashStep (s : State) : State := completeHash (answer (hostMessage s) s)

end Sys2Proof.Machine
end

