-- ==== Sys2Proof/Machine/Permute.lean ====
section
/-! DEFINITION. The PERMUTE command, the datapath of one round and the round controller
(spec/41_permute.md R161 to R175). -/

namespace Sys2Proof.Machine

/-! ### Acceptance -/

/-- The first precondition of PERMUTE that fails, INVALID_INDEX before LIST_TOO_LARGE (R161). -/
def permuteError (s : State) : Option OpError :=
  if s.listSize.toNat ≤ s.index.toNat then some .invalidIndex
  else if Config.maxListSize < s.listSize.toNat then some .listTooLarge
  else none

/-- The acceptance of a PERMUTE whose checks pass (R163). -/
def startPermute (s : State) : State :=
  { s with
    status := acceptedStatus opPermute true
    widx := s.index.setWidth 40
    n := s.listSize.setWidth 41
    round := 0#7
    phase := .pivot }

/-- `PERMUTE`, acceptance (R163). -/
def execPermute (s : State) : Host.Outcome State Fault Refusal :=
  .next (unlessBusy (regOffset .ctrl) s
    (match permuteError s with
      | some e => failOpError e s
      | none => okWrite (startPermute s)))

/-! ### The datapath of one round -/

/-- Step 1, `int.pivot`: the exact remainder of the pivot digest's first 8 bytes (R164). -/
def pivotOf (d : Digest) (n : BitVec 41) : BitVec 40 := BitVec.ofNat 40 (digestLow64 d % n.toNat)

/-- Step 2, `int.flip`: one conditional subtract or add (R165). -/
def flipOf (pivot widx : BitVec 40) (n : BitVec 41) : BitVec 40 :=
  BitVec.ofNat 40 (if widx.toNat ≤ pivot.toNat then pivot.toNat - widx.toNat
    else pivot.toNat + n.toNat - widx.toNat)

/-- Step 3, `int.pos`: the unsigned maximum (R166). -/
def posOf (widx flip : BitVec 40) : BitVec 40 := if widx.toNat ≤ flip.toNat then flip else widx

/-- Steps 5 and 6: the selected bit of the source digest (R168, R169). -/
def selectedBit (d : Digest) (pos : BitVec 40) : Bool :=
  (digestByte d (byteOffset pos).toNat).getLsbD (bitSelect pos).toNat

/-- Step 7: the conditional swap (R173). -/
def swapOf (bit : Bool) (widx flip : BitVec 40) : BitVec 40 := if bit then flip else widx

/-! ### The controller's steps -/

/-- What the PIVOT step writes once its query is answered: steps 1 to 3 (R170). -/
def applyPivot (s : State) : State :=
  let pivot := pivotOf s.dqAnswer s.n
  let flip := flipOf pivot s.widx s.n
  { s with pivot := pivot, flip := flip, pos := posOf s.widx flip, phase := .source }

/-- The controller step PIVOT of round `int.round` (R170). -/
def pivotStep (s : State) : State := applyPivot (answer (pivotMessage s.rnd s) s)

/-- Steps 5 to 7 and the advance of the round, `int.round` and `STATUS.ROUND` (R171, R172). -/
def advanceRound (s : State) : State :=
  { s with
    widx := swapOf (selectedBit s.dqAnswer s.pos) s.widx s.flip
    round := s.round + 1#7
    status := { s.status with round := s.round + 1#7 } }

/-- PERMUTE completion: `RESULT <- zext_64(int.widx)` with the completion flags, in one step
(R175). -/
def completePermute (s : State) : State :=
  { s with
    resultLo := s.widx.extractLsb' 0 32
    resultHi := (s.widx.extractLsb' 32 8).setWidth 32
    status := completedStatus s.status
    irqPend := true
    phase := .idle }

/-- The controller step SOURCE of round `int.round` (R171). -/
def sourceStep (s : State) : State :=
  let t := advanceRound (answer (sourceMessage s.rnd (blockIndex s.pos) s) s)
  if t.round.toNat = Config.rounds then completePermute t else { t with phase := .pivot }

/-- One step of the round controller. It has a step only while `int.phase ≠ IDLE` (R15); a schedule
that names it while idle passes over it. -/
def controllerStep (s : State) : Host.Outcome State Fault Refusal :=
  match s.phase with
  | .idle => .next s
  | .hash => .next (hashStep s)
  | .pivot =>
    if s.round.toNat < Config.rounds then .next (pivotStep s) else .fault .controllerOutOfRounds
  | .source =>
    if s.round.toNat < Config.rounds then .next (sourceStep s) else .fault .controllerOutOfRounds

end Sys2Proof.Machine
end

