-- ==== Sys2Proof/Machine/Dispatch.lean ====
section
/-! DEFINITION. The dispatch of the instructions to their meanings. -/

namespace Sys2Proof.Machine

def exec (i : Instr) (s : State) : Host.Outcome State Fault Refusal :=
  match i with
  | .rd r => Sys2Proof.Machine.execRd r s
  | .wrIndexLo data => Sys2Proof.Machine.execWrIndexLo data s
  | .wrIndexHi data => Sys2Proof.Machine.execWrIndexHi data s
  | .wrListSizeLo data => Sys2Proof.Machine.execWrListSizeLo data s
  | .wrListSizeHi data => Sys2Proof.Machine.execWrListSizeHi data s
  | .wrSeedLen data => Sys2Proof.Machine.execWrSeedLen data s
  | .wrIrqEn data => Sys2Proof.Machine.execWrIrqEn data s
  | .wrIrqStatus data => Sys2Proof.Machine.execWrIrqStatus data s
  | .wrSeed j data => Sys2Proof.Machine.execWrSeed j data s
  | .nop => Sys2Proof.Machine.execNop s
  | .permute => Sys2Proof.Machine.execPermute s
  | .hash => Sys2Proof.Machine.execHash s
  | .softReset => Sys2Proof.Machine.execSoftReset s
  | .dqHost => Sys2Proof.Machine.execDqHost s
  | .dqPivot rnd => Sys2Proof.Machine.execDqPivot rnd s
  | .dqSource rnd blk => Sys2Proof.Machine.execDqSource rnd blk s

end Sys2Proof.Machine
end

