-- ==== Sys2Proof/Machine/Agents.lean ====
section
/-! DEFINITION. The steps of the agents and the choice between them (spec/00_scope.md R15,
spec/20_memory.md R85, spec/70_reset_and_hazards.md R280, R300). -/

namespace Sys2Proof.Machine

/-- Performs what a frame decodes to: the instruction's meaning, or the bus error its decoding
raises (R105, R240). -/
def runDecoded (d : Decoded) (s : State) : Host.Outcome State Fault Refusal :=
  match d with
  | .instr i => exec i s
  | .busError cause off w => .next (raiseBusError cause off w s)
  | .invalid why => .refused (.spellsNothing why)

/-- Performs one arrival. A bus transaction in the window at `BASE` is performed as its `TD48` word
(R72); one outside never reaches the engine, and nothing changes (R83). -/
def performEvent (e : Event) (s : State) : Host.Outcome State Fault Refusal :=
  match e with
  | .access a =>
    match busWord s.base a with
    | some w => runDecoded (decode s.seedCap (.td48 w)) s
    | none => .next s
  | .transaction w => runDecoded (decode s.seedCap (.td48 w)) s
  | .query w => runDecoded (decode s.seedCap (.dq42 w)) s
  | .reset => .next (hardwareReset s)

/-- A step of the host: the first arrival is taken off and performed. With nothing to arrive the
host has no step, and nothing changes. -/
def hostStep (s : State) : Host.Outcome State Fault Refusal :=
  match s.events with
  | [] => .next s
  | e :: rest => performEvent e { s with events := rest }

/-- The agent that takes the next step: the one the schedule names, and after the schedule's end
the controller while it is enabled (weak fairness, R15, R300). Log entry 4. -/
def nextAgent (s : State) : Agent :=
  match s.schedule with
  | a :: _ => a
  | [] => if s.phase = .idle then .host else .controller

/-- A step of an agent. -/
def agentStep (a : Agent) (s : State) : Host.Outcome State Fault Refusal :=
  match a with
  | .host => hostStep s
  | .controller => controllerStep s

/-- A frame as the event that brings it to the engine. -/
def frameEvent : Frame → Event
  | .td48 w => .transaction w
  | .dq42 w => .query w

end Sys2Proof.Machine
end

