-- ==== Sys2Proof/Machine/Step.lean ====
section
/-! DEFINITION. One step of the machine: the next agent takes one atomic step (spec/00_scope.md
R15); and the placing of a word of the opcode table as the next thing to arrive. -/

namespace Sys2Proof.Machine

/-- One step. An engine whose `SEED_CAP` is not legal has none (I15). -/
def step (s : State) : Host.Outcome State Fault Refusal :=
  if Config.legalSeedCap s.seedCap then
    agentStep (nextAgent s) { s with schedule := s.schedule.tail }
  else .refused .illFormedEngine

/-- The state in which the next step performs the instruction of the opcode table's word `w`: it is
the next arrival, and the host is the next agent. -/
def State.withFetchWord (s : State) (nbits w : Nat) : State :=
  { s with
    events := frameEvent (tableFrame nbits w) :: s.events
    schedule := .host :: s.schedule }

end Sys2Proof.Machine
end

