-- ==== Sys2Proof/Machine/Access.lean ====
section
/-! DEFINITION. The access function of spec/42_host_access.md R200 and R208, written check by check
on offsets as the spec writes it. The machine reaches the same effect by decoding first (R105) and
running the instruction; a statement says that the two agree. -/

namespace Sys2Proof.Machine

/-- `Unmapped(off)`: the offsets R35 lists. -/
def accessUnmapped (cap : Nat) (off : Nat) : Bool :=
  (decide (0x038 ≤ off) && decide (off ≤ 0x03F)) || (decide (0x060 ≤ off) && decide (off ≤ 0x0FF)) ||
    decide (0x100 + cap ≤ off)

/-- The read-only offsets R200 lists. -/
def accessReadOnly (off : Nat) : Bool :=
  [0x000, 0x004, 0x00C, 0x024, 0x028, 0x034].contains off ||
    (decide (0x040 ≤ off) && decide (off ≤ 0x05C))

/-- `Legal(off, data)`: false only for the values R106 names. -/
def accessLegal (cap : Nat) (off : Nat) (data : Word) : Bool :=
  if off = 0x020 then decide (data.toNat < 2 ^ 11) && decide (data.toNat ≤ cap)
  else if off = 0x02C ∨ off = 0x030 then decide (data.toNat < 2)
  else true

/-- `Protected(off)` (R200). -/
def accessProtected (cap : Nat) (off : Nat) : Bool :=
  [0x010, 0x014, 0x018, 0x01C, 0x020].contains off ||
    (decide (0x100 ≤ off) && decide (off < 0x100 + cap))

/-- `ReadValue(off)` on a mapped offset (R201). -/
def accessReadValue (off : Nat) (s : State) : Word :=
  if off = 0x000 then 0x534F4E31#32
  else if off = 0x004 then BitVec.ofNat 32 (40 * 2 ^ 20 + s.seedCap * 2 ^ 8 + 90)
  else if off = 0x00C then s.status.word
  else if off = 0x010 then s.indexLo
  else if off = 0x014 then s.indexHi
  else if off = 0x018 then s.listSizeLo
  else if off = 0x01C then s.listSizeHi
  else if off = 0x020 then BitVec.ofNat 32 s.seedLen.toNat
  else if off = 0x024 then s.resultLo
  else if off = 0x028 then s.resultHi
  else if off = 0x02C then (if s.irqEn then 1#32 else 0#32)
  else if off = 0x030 then (if s.irqPend then 1#32 else 0#32)
  else if off = 0x034 then s.busErr.word
  else if 0x040 ≤ off ∧ off < 0x060 then s.digest.toList.getD ((off - 0x040) / 4) 0#32
  else if 0x100 ≤ off then
    ofLanes (readSeed s (off - 0x100)) (readSeed s (off - 0x100 + 1)) (readSeed s (off - 0x100 + 2))
      (readSeed s (off - 0x100 + 3))
  else 0#32

/-- The register write on a writable offset (R202 to R205, R211, R212). -/
def accessWrite (off : Nat) (data : Word) (s : State) : State :=
  if off = 0x010 then { s with indexLo := data }
  else if off = 0x014 then { s with indexHi := data }
  else if off = 0x018 then { s with listSizeLo := data }
  else if off = 0x01C then { s with listSizeHi := data }
  else if off = 0x020 then { s with seedLen := BitVec.ofNat 11 data.toNat }
  else if off = 0x02C then { s with irqEn := decide (data = 1#32) }
  else if off = 0x030 then { s with irqPend := s.irqPend && decide (data ≠ 1#32) }
  else
    { s with
      seed := (((s.seed.set (off - 0x100) (lane data 0)).set (off - 0x100 + 1) (lane data 1)).set
        (off - 0x100 + 2) (lane data 2)).set (off - 0x100 + 3) (lane data 3) }

/-- `Command(data)` (R208). -/
def accessCommand (data : Word) (s : State) : Host.Outcome State Fault Refusal :=
  if data.toNat / 16 ≠ 0 ∨ 4 ≤ data.toNat % 16 then
    .next (raiseBusError .illegalValue 0x008#12 true s)
  else if data.toNat % 16 = 0 then exec .nop s
  else if data.toNat % 16 = 1 then exec .permute s
  else if data.toNat % 16 = 2 then exec .hash s
  else exec .softReset s

/-- `Access(off, size, w, data)` (R200): the checks in the order written, the first that fails
decides. -/
def access (off : Offset) (size : Nat) (w : Bool) (data : Word) (s : State) :
    Host.Outcome State Fault Refusal :=
  if size ≠ 4 ∨ off.toNat % 4 ≠ 0 then .next (raiseBusError .misaligned off w s)
  else if accessUnmapped s.seedCap off.toNat then .next (raiseBusError .unmapped off w s)
  else if w = false then .next (respond (.read (accessReadValue off.toNat s) .okay) s)
  else if off.toNat = 0x008 then accessCommand data s
  else if accessReadOnly off.toNat then .next (raiseBusError .readOnly off true s)
  else if accessLegal s.seedCap off.toNat data = false then
    .next (raiseBusError .illegalValue off true s)
  else if accessProtected s.seedCap off.toNat ∧ s.status.busy = true then
    .next (raiseBusError .busy off true s)
  else .next (respond (.write .okay) (accessWrite off.toNat data s))

end Sys2Proof.Machine
end

