-- ==== Sys2Proof/Machine/Reference.lean ====
section
/-! DEFINITION. The function the engine computes, on mathematical integers, as the source defines it
(spec/41_permute.md R160). The engine's own datapath is in Machine/Permute.lean; statements say that
the two agree. -/

namespace Sys2Proof.Machine

/-- Step 1 of a round: the pivot. -/
def refPivot (seed : List Byte) (n r : Nat) : Nat := digestLow64 (sha256 (seed ++ u8 r)) % n

/-- Step 2 of a round: the flip, with the non-negative `mod` of R10. -/
def refFlip (n pivot index : Nat) : Nat := (((pivot : Int) - (index : Int)) % (n : Int)).toNat

/-- Steps 4 to 6 of a round: the bit of the source digest at a position. -/
def refBit (seed : List Byte) (r position : Nat) : Nat :=
  ((digestByte (sha256 (seed ++ u8 r ++ u32le (position / 256))) ((position % 256) / 8)).toNat
    >>> (position % 8)) % 2

/-- One round of the loop of R160. -/
def permuteRound (seed : List Byte) (n r index : Nat) : Nat :=
  let flip := refFlip n (refPivot seed n r) index
  if refBit seed r (max index flip) = 1 then flip else index

/-- The first `k` rounds, ascending. -/
def permuteRounds (seed : List Byte) (n : Nat) : Nat → Nat → Nat
  | 0, index => index
  | k + 1, index => permuteRound seed n k (permuteRounds seed n k index)

/-- `permute(index, n, seed)` (R160). -/
def permute (index n : Nat) (seed : List Byte) : Nat := permuteRounds seed n 90 index

/-- The first `k` rounds applied in descending order, the inverse of R181. -/
def unpermuteRounds (seed : List Byte) (n : Nat) : Nat → Nat → Nat
  | 0, index => index
  | k + 1, index => unpermuteRounds seed n k (permuteRound seed n k index)

end Sys2Proof.Machine
end

