-- ==== Sys2Proof/Safety.lean ====
section
/-! DEFINITION. The terms statements use: the legal states of the engine, and the causes of a
rejected access as the table of spec/60_exceptions.md R241 gives them. -/

namespace Sys2Proof.Machine

/-- The legal combinations of the fields of `STATUS` (R25, I8). -/
structure StatusLegal (t : Status) : Prop where
  busyClear : t.busy = true → t.done = false ∧ t.err = false ∧ t.errcode = 0#4
  errSet : t.err = true → t.done = true ∧ (t.errcode = 1#4 ∨ t.errcode = 2#4)
  errClear : t.err = false → t.errcode = 0#4
  hashRound : t.op = 2#2 → t.round = 0#7
  opNone : t.op = 0#2 → t = Status.zero
  opLegal : t.op ≠ 3#2
  roundBound : t.round.toNat ≤ 90

/-- The legal values of `BUSERR`: all 0 until an access is rejected, then a cause 1 to 5 (R32, I8),
a write where R241 says that only writes raise the cause. -/
structure BusErrLegal (b : BusErr) : Prop where
  invalidZero : b.valid = false → b = BusErr.zero
  causeRange : b.valid = true → 1 ≤ b.cause.toNat ∧ b.cause.toNat ≤ 5
  writeCause : b.valid = true → 3 ≤ b.cause.toNat → b.write = true

/-- The registers hold legal values: the instance parameter (R7), the seed buffer of `SEED_CAP`
bytes (R34), `SEED_LEN` (R28), `STATUS` (R25), `BUSERR` (R32) and `RESULT_HI[31:8] = 0` (R29). -/
structure RegistersLegal (s : State) : Prop where
  cap : Config.legalSeedCap s.seedCap = true
  seedLength : s.seed.length = s.seedCap
  seedLen : s.seedLen.toNat ≤ s.seedCap
  status : StatusLegal s.status
  busErr : BusErrLegal s.busErr
  resultHi : s.resultHi.toNat < 2 ^ 8

/-- What holds of the controller while a PERMUTE runs (R52, R88, R180): the operation's operands are
still in the operand registers, and the working index is that of R160 after `int.round` rounds. -/
structure PermuteRunning (s : State) : Prop where
  op : s.status.op = opPermute
  round : s.round.toNat < 90
  statusRound : s.status.round = s.round
  list : s.n.toNat = s.listSize.toNat
  bound : s.listSize.toNat ≤ 2 ^ 40
  index : s.index.toNat < s.listSize.toNat
  widx : s.widx.toNat =
    permuteRounds s.seedStr s.listSize.toNat s.round.toNat s.index.toNat

/-- What the PIVOT step leaves for the SOURCE step (R52): the pivot, flip and position of the
round. -/
structure RoundPrepared (s : State) : Prop where
  pivot : s.pivot.toNat = refPivot s.seedStr s.listSize.toNat s.round.toNat
  flip : s.flip.toNat = refFlip s.listSize.toNat s.pivot.toNat s.widx.toNat
  pos : s.pos.toNat = max s.widx.toNat s.flip.toNat

/-- The controller is at a position R52 lists, and `STATUS.BUSY` says whether it is running. -/
structure ControllerLegal (s : State) : Prop where
  busy : s.status.busy = true ↔ s.phase ≠ .idle
  hash : s.phase = .hash → s.status.op = opHash ∧ s.round = 0#7
  permute : s.phase = .pivot ∨ s.phase = .source → PermuteRunning s
  prepared : s.phase = .source → RoundPrepared s

/-- The invariant of the engine. -/
structure EngineInv (s : State) : Prop where
  registers : RegistersLegal s
  controller : ControllerLegal s

/-- A cause of the table of R241 applies to a transaction, whatever the others do. -/
def causeApplies (c : BusCause) (d : Descriptor) (s : State) : Prop :=
  let off := d.off.toNat
  let aligned := d.sz = 2#2 ∧ off % 4 = 0
  match c with
  | .misaligned => ¬ aligned
  | .unmapped => aligned ∧ accessUnmapped s.seedCap off = true
  | .readOnly => aligned ∧ d.w = true ∧ accessReadOnly off = true
  | .illegalValue => aligned ∧ d.w = true ∧
      (accessLegal s.seedCap off d.data = false ∨ (off = 0x008 ∧ 4 ≤ d.data.toNat))
  | .busy => aligned ∧ d.w = true ∧ s.status.busy = true ∧
      (accessProtected s.seedCap off = true ∨
        (off = 0x008 ∧ (d.data.toNat = 1 ∨ d.data.toNat = 2)))

/-- The state after a rejected access: the response and `BUSERR`, nothing else (R240). -/
def rejectedState (cause : BitVec 3) (off : Offset) (w : Bool) (s : State) : State :=
  { s with
    busErr := { offset := off, cause := cause, write := w, valid := true }
    busResp := some (if w then .write .slverr else .read 0#32 .slverr) }

/-- The step that comes next is the one that takes the last controller step of a PERMUTE (R171,
R175). -/
def completesPermute (s : State) : Prop :=
  nextAgent s = .controller ∧ s.phase = .source ∧ s.round = 89#7

/-- The step that comes next is the controller step of a HASH (R141). -/
def completesHash (s : State) : Prop := nextAgent s = .controller ∧ s.phase = .hash

/-- What an arrival is at an engine at `base`: a bus access in the window is its `TD48` transaction,
one outside is nothing, and any other arrival is itself (R72, R83). -/
def arrivesAs (base : Nat) (e : Event) : Option Event :=
  match e with
  | .access a => (busWord base a).map Event.transaction
  | .transaction w => some (.transaction w)
  | .query w => some (.query w)
  | .reset => some .reset

/-- The step that comes next performs the event `e`, or a bus access that arrives as `e`. -/
def performsNext (e : Event) (s : State) : Prop :=
  nextAgent s = .host ∧ ∃ a, s.events.head? = some a ∧ arrivesAs s.base a = some e

/-! ### The same engine placed elsewhere (R7, R83, R264) -/

/-- An access, `d` bytes further up the bus. -/
def accessMovedBy (d : Nat) : BusAccess → BusAccess
  | .read addr size => .read (addr + d) size
  | .write addr size data => .write (addr + d) size data

/-- An arrival whose bus address, where it has one, is `d` bytes further up the bus. -/
def Event.movedBy (d : Nat) : Event → Event
  | .access a => .access (accessMovedBy d a)
  | .transaction w => .transaction w
  | .query w => .query w
  | .reset => .reset

/-- The engine placed `pages` windows further up the bus, with the accesses still to arrive. -/
def State.movedBy (pages : Nat) (s : State) : State :=
  { s with
    basePage := s.basePage + pages
    events := s.events.map (Event.movedBy (Config.windowBytes * pages)) }

end Sys2Proof.Machine
end

