-- ==== Sys2Proof/Certificates/Slice0/Obligations.lean ====
section
/-! DEFINITION. The statements about the engine. Each docstring names the rules of spec/ it rests on.
`rejectedState`, `EngineInv` and the other terms are in Sys2Proof/Safety.lean. -/

open Sys2Proof Sys2Proof.Machine

/-! ### Encoding -/

/-- R102, R103, R105, R110: decoding the frame of a well-formed instruction gives it back, for every
legal `SEED_CAP` and every operand. -/
def Obligations.DecodeInvertsEncode : Prop :=
  ∀ (cap : Nat) (i : Instr), Config.legalSeedCap cap = true → i.wellFormed cap = true →
    decode cap (encode i) = .instr i

/-- R102, R103, R110: a frame that decodes to an instruction is that instruction's frame, so every
bit of a frame is accounted for. Over `DQ42` frames this rests on the model's own reading of R103,
log entry 9 (DEDUCED): a frame with `KIND = 1` and `BLK` not 0 is refused, which narrows the mask that
R110 lists for DQ_PIVOT, `KIND` alone. -/
def Obligations.EncodeInvertsDecode : Prop :=
  ∀ (cap : Nat) (f : Frame) (i : Instr), Config.legalSeedCap cap = true →
    decode cap f = .instr i → encode i = f

/-- R110: the words of the opcode table decode to the table's instructions: the header of each row
(bits 47:32), with its data; the offsets are those of R20. That a query word whose `RND` is 90 or more
decodes is the model's choice, log entry 9. -/
def Obligations.OpcodeTableRowsDecode : Prop :=
  ∀ (cap : Nat) (data : Word), Config.legalSeedCap cap = true →
    decode cap (.td48 (0xC010#16 ++ data)) = .instr (.wrIndexLo data) ∧
    decode cap (.td48 (0xC014#16 ++ data)) = .instr (.wrIndexHi data) ∧
    decode cap (.td48 (0xC018#16 ++ data)) = .instr (.wrListSizeLo data) ∧
    decode cap (.td48 (0xC01C#16 ++ data)) = .instr (.wrListSizeHi data) ∧
    decode cap (.td48 (0xC020#16 ++ data)) = .instr (.wrSeedLen data) ∧
    decode cap (.td48 (0xC02C#16 ++ data)) = .instr (.wrIrqEn data) ∧
    decode cap (.td48 (0xC030#16 ++ data)) = .instr (.wrIrqStatus data) ∧
    (∀ j : BitVec 8, 4 * j.toNat < cap →
      decode cap (.td48 (BitVec.ofNat 16 (0xC100 + 4 * j.toNat) ++ data)) = .instr (.wrSeed j data) ∧
      decode cap (.td48 (BitVec.ofNat 16 (0x4100 + 4 * j.toNat) ++ 0#32)) = .instr (.rd (.seed j))) ∧
    decode cap (.td48 0xC00800000000#48) = .instr .nop ∧
    decode cap (.td48 0xC00800000001#48) = .instr .permute ∧
    decode cap (.td48 0xC00800000002#48) = .instr .hash ∧
    decode cap (.td48 0xC00800000003#48) = .instr .softReset ∧
    decode cap (.td48 0x400000000000#48) = .instr (.rd .id) ∧
    decode cap (.td48 0x400400000000#48) = .instr (.rd .params) ∧
    decode cap (.td48 0x400800000000#48) = .instr (.rd .ctrl) ∧
    decode cap (.td48 0x400C00000000#48) = .instr (.rd .status) ∧
    decode cap (.td48 0x401000000000#48) = .instr (.rd .indexLo) ∧
    decode cap (.td48 0x401400000000#48) = .instr (.rd .indexHi) ∧
    decode cap (.td48 0x401800000000#48) = .instr (.rd .listSizeLo) ∧
    decode cap (.td48 0x401C00000000#48) = .instr (.rd .listSizeHi) ∧
    decode cap (.td48 0x402000000000#48) = .instr (.rd .seedLen) ∧
    decode cap (.td48 0x402400000000#48) = .instr (.rd .resultLo) ∧
    decode cap (.td48 0x402800000000#48) = .instr (.rd .resultHi) ∧
    decode cap (.td48 0x402C00000000#48) = .instr (.rd .irqEn) ∧
    decode cap (.td48 0x403000000000#48) = .instr (.rd .irqStatus) ∧
    decode cap (.td48 0x403400000000#48) = .instr (.rd .busErr) ∧
    (∀ k : Fin 8, decode cap (.td48 (BitVec.ofNat 16 (0x4040 + 4 * k.val) ++ 0#32)) =
      .instr (.rd (.digest k))) ∧
    decode cap (.dq42 0x00000000000#42) = .instr .dqHost ∧
    (∀ rnd : Byte, decode cap (.dq42 (1#2 ++ rnd ++ 0#32)) = .instr (.dqPivot rnd)) ∧
    (∀ rnd : Byte, decode cap (.dq42 (2#2 ++ rnd ++ data)) = .instr (.dqSource rnd data))

/-- R101, R208: the legal `CMD32` words are exactly 0 to 3, each its command; any other word written
to `CTRL` has no effect except the bus error ILLEGAL_VALUE, whether or not the engine is busy. -/
def Obligations.CommandWordsAreExactlyFour : Prop :=
  ∀ (s : State) (data : Word),
    runDecoded (decode s.seedCap (.td48 (0xC008#16 ++ data))) s =
      if data = 0x00000000#32 then exec .nop s
      else if data = 0x00000001#32 then exec .permute s
      else if data = 0x00000002#32 then exec .hash s
      else if data = 0x00000003#32 then exec .softReset s
      else .next (rejectedState 4#3 0x008#12 true s)

/-- R102: a descriptor spells no transaction exactly when `SZ = 3`, `RSV = 1` or
`W = 0 ∧ DATA ≠ 0`; the model refuses it, log entry 9. -/
def Obligations.DescriptorsThatSpellNothing : Prop :=
  ∀ (s : State) (w : BitVec 48),
    (∃ why, runDecoded (decode s.seedCap (.td48 w)) s = .refused (.spellsNothing why)) ↔
      (w.toNat / 2 ^ 45 % 4 = 3 ∨ w.toNat / 2 ^ 44 % 2 = 1 ∨
        (w.toNat / 2 ^ 47 = 0 ∧ w.toNat % 2 ^ 32 ≠ 0))

/-- R103: a query spells nothing exactly when its kind is 3, or a field that its kind leaves 0 is not
0. That the model refuses such a query is its own reading of R103, log entry 9. -/
def Obligations.QueriesThatSpellNothing : Prop :=
  ∀ (s : State) (w : BitVec 42),
    (∃ why, runDecoded (decode s.seedCap (.dq42 w)) s = .refused (.spellsNothing why)) ↔
      (w.toNat / 2 ^ 40 = 3 ∨ (w.toNat / 2 ^ 40 = 0 ∧ w.toNat ≠ 0) ∨
        (w.toNat / 2 ^ 40 = 1 ∧ w.toNat % 2 ^ 32 ≠ 0))

/-! ### The step -/

/-- R15, R85: when the next agent is the host and the first arrival is a frame that decodes to an
instruction, the step is that instruction's meaning on the state with the arrival taken off and the
schedule advanced. So it is for a bus access in the window at `BASE` whose `TD48` word decodes to the
instruction (R72; the bus access as an arrival: log entry 14), and for the step after `withFetchWord`.
R15 and R85 give the host transactions only.
The model's choices are the schedule that a step advances (log entry 4), a query as an arrival of the
host's step and `withFetchWord` as one frame presented first (log entry 6), and the format in which a
word of the opcode table is read (log entry 5). -/
def Obligations.StepRunsTheDecodedInstruction : Prop :=
  ∀ (s : State) (i : Instr), Config.legalSeedCap s.seedCap = true →
    (∀ (w : BitVec 48) (rest : List Event), s.events = .transaction w :: rest →
      nextAgent s = .host → decode s.seedCap (.td48 w) = .instr i →
      step s = exec i { s with events := rest, schedule := s.schedule.tail }) ∧
    (∀ (a : BusAccess) (w : BitVec 48) (rest : List Event), s.events = .access a :: rest →
      nextAgent s = .host → busWord s.base a = some w → decode s.seedCap (.td48 w) = .instr i →
      step s = exec i { s with events := rest, schedule := s.schedule.tail }) ∧
    (∀ (w : BitVec 42) (rest : List Event), s.events = .query w :: rest →
      nextAgent s = .host → decode s.seedCap (.dq42 w) = .instr i →
      step s = exec i { s with events := rest, schedule := s.schedule.tail }) ∧
    (∀ nbits w : Nat, decode s.seedCap (tableFrame nbits w) = .instr i →
      step (s.withFetchWord nbits w) = exec i s)

/-- R15: "it has a step only while `int.phase ≠ IDLE`". The schedule's first entry takes the step;
a controller named while idle, and a host named with nothing to arrive, change nothing but the
schedule; past the schedule's end an enabled controller steps. The last clause and the passing over
are the model's choice, log entry 4. -/
def Obligations.TheScheduleNamesTheAgent : Prop :=
  ∀ (s : State) (rest : List Agent), Config.legalSeedCap s.seedCap = true →
    (s.schedule = .controller :: rest →
      step s = controllerStep { s with schedule := rest } ∧
      (s.phase = .idle → step s = .next { s with schedule := rest })) ∧
    (s.schedule = .host :: rest →
      step s = hostStep { s with schedule := rest } ∧
      (s.events = [] → step s = .next { s with schedule := rest })) ∧
    (s.schedule = [] → s.phase ≠ .idle → step s = controllerStep s) ∧
    (s.schedule = [] → s.phase = .idle → step s = hostStep s)

/-! ### Reset -/

/-- R281: the reset value of every state element, for every `BASE` and `SEED_CAP`. Three clauses are
the model's choice: `State.reset` stands at the free `BASE` (log entry 14), a seed byte, which R281 leaves unspecified, is the free draw named by the count of resets (log
entry 3), and `State.reset` is the reset of the default `SEED_CAP` of R7 (log entry 1). -/
def Obligations.ResetValues : Prop :=
  State.reset = State.afterReset Config.platformPage 256 0 ∧
  readValue .params State.reset = 0x0281005A#32 ∧
  ∀ page cap resets : Nat, let s := State.afterReset page cap resets
    s.base = 4096 * page ∧
    readValue .id s = 0x534F4E31#32 ∧
    (cap < 4096 → (readValue .params s).toNat = 40 * 2 ^ 20 + cap * 2 ^ 8 + 90) ∧
    readValue .status s = 0#32 ∧
    s.status.busy = false ∧ s.status.done = false ∧ s.status.err = false ∧
    s.status.errcode = 0#4 ∧ s.status.round = 0#7 ∧ s.status.op = 0#2 ∧
    readValue .indexLo s = 0#32 ∧ readValue .indexHi s = 0#32 ∧
    readValue .listSizeLo s = 0#32 ∧ readValue .listSizeHi s = 0#32 ∧
    readValue .seedLen s = 0#32 ∧
    readValue .resultLo s = 0#32 ∧ readValue .resultHi s = 0#32 ∧
    s.irqEn = false ∧ readValue .irqEn s = 0#32 ∧
    s.irqPend = false ∧ readValue .irqStatus s = 0#32 ∧
    s.busErr.valid = false ∧ readValue .busErr s = 0#32 ∧
    (∀ k : Fin 8, readValue (.digest k) s = 0#32) ∧
    s.seed.length = cap ∧ (∀ k, k < cap → readSeed s k = Config.seedDraw resets k) ∧
    s.phase = .idle ∧ s.round = 0#7 ∧ s.widx = 0#40 ∧ s.n = 0#41 ∧ s.pivot = 0#40 ∧
    s.flip = 0#40 ∧ s.pos = 0#40 ∧ s.irq = false

/-- R280, R281: the reset input ends whatever runs: the step that takes it leaves every element at
its reset value, whatever the state, and the seed buffer drawn anew. That the reset input is one
event, and that what is still to arrive stays, is the model's choice, log entry 8; so are the name of
the draw, log entry 3, and what stands in the model's own fields, log entry 7. -/
def Obligations.HardwareResetFromAnyState : Prop :=
  ∀ (s : State) (rest : List Event), Config.legalSeedCap s.seedCap = true →
    nextAgent s = .host → s.events = .reset :: rest →
    ∃ t, step s = .next t ∧ t.irq = false ∧
      t = { State.afterReset s.basePage s.seedCap (s.resets + 1) with
              events := rest, schedule := s.schedule.tail }

/-- R207, R283: SOFT_RESET, the word `0xC008_00000003`, gives the reset state except for the seed
buffer, which keeps its contents; it is OKAY in every state. The equality of whole states also fixes
the model's own fields `dqAnswer`, `busResp` and `resets`, and keeps the arrivals and the schedule: that
is the model's choice, log entry 7. -/
def Obligations.SoftResetKeepsOnlyTheSeed : Prop :=
  encode .softReset = .td48 0xC00800000003#48 ∧
  ∀ s : State,
    exec .softReset s = .next
      { State.afterReset s.basePage s.seedCap s.resets with
        seed := s.seed, events := s.events, schedule := s.schedule,
        busResp := some (.write .okay) }

/-! ### Transactions and bus errors -/

/-- R200, R208: performing a transaction by decoding its descriptor (R105) and running the
instruction has exactly the effect of the access function, check by check; `off`, the size, the
direction and the data are those bits of the descriptor. -/
def Obligations.TransactionsPerformTheAccessFunction : Prop :=
  ∀ (s : State) (w : Bool) (sz : BitVec 2) (off : Offset) (data : Word),
    Config.legalSeedCap s.seedCap = true → sz ≠ 3#2 → (w = false → data = 0#32) →
    runDecoded (decode s.seedCap
        (.td48 (BitVec.ofBool w ++ sz ++ 0#1 ++ off ++ data))) s =
      access off (2 ^ sz.toNat) w data s

/-- R241, R242: the cause recorded is the first that applies in the order of the codes, and an
access to which none applies returns OKAY with `BUSERR` as it was (a SOFT_RESET clears it). -/
def Obligations.FirstCauseThatAppliesIsRecorded : Prop :=
  ∀ (s : State) (d : Descriptor), Config.legalSeedCap s.seedCap = true →
    descriptorError d = none →
    (∀ c : BusCause, causeApplies c d s →
      (∀ b : BusCause, (causeCode b).toNat < (causeCode c).toNat → ¬ causeApplies b d s) →
      runDecoded (decodeDescriptor s.seedCap d) s =
        .next (rejectedState (causeCode c) d.off d.w s)) ∧
    ((∀ c : BusCause, ¬ causeApplies c d s) →
      ∃ t, runDecoded (decodeDescriptor s.seedCap d) s = .next t ∧
        ((∃ x, d.w = false ∧ t.busResp = some (.read x .okay)) ∨
          (d.w = true ∧ t.busResp = some (.write .okay))) ∧
        (t.busErr = s.busErr ∨ (d.off = 0x008#12 ∧ d.data = 3#32 ∧ t.busErr = BusErr.zero)))

/-- R240: a bus error is precise. Where a transaction's response is SLVERR, the state is the one
before but for `BUSERR`, which records the access, and the response, whose data is 0. -/
def Obligations.BusErrorsArePrecise : Prop :=
  ∀ (s t : State) (w : BitVec 48), Config.legalSeedCap s.seedCap = true →
    runDecoded (decode s.seedCap (.td48 w)) s = .next t →
    (t.busResp = some (.write .slverr) ∨ ∃ x, t.busResp = some (.read x .slverr)) →
    ∃ cause : BitVec 3, 1 ≤ cause.toNat ∧ cause.toNat ≤ 5 ∧
      t = rejectedState cause (BitVec.ofNat 12 (w.toNat / 2 ^ 32)) (w.getLsbD 47) s

/-- R290, R291: while `STATUS.BUSY = 1` every operand write, seed write, PERMUTE and HASH is rejected
with BUSY and has no other effect: it is lost, and starts nothing. -/
def Obligations.BusyRejectsOperandsAndCommands : Prop :=
  ∀ (s : State) (data : Word), s.status.busy = true →
    exec (.wrIndexLo data) s = .next (rejectedState 5#3 0x010#12 true s) ∧
    exec (.wrIndexHi data) s = .next (rejectedState 5#3 0x014#12 true s) ∧
    exec (.wrListSizeLo data) s = .next (rejectedState 5#3 0x018#12 true s) ∧
    exec (.wrListSizeHi data) s = .next (rejectedState 5#3 0x01C#12 true s) ∧
    (data.toNat < 2 ^ 11 → data.toNat ≤ s.seedCap →
      exec (.wrSeedLen data) s = .next (rejectedState 5#3 0x020#12 true s)) ∧
    (∀ j : BitVec 8, 4 * j.toNat < s.seedCap → exec (.wrSeed j data) s =
      .next (rejectedState 5#3 (BitVec.ofNat 12 (0x100 + 4 * j.toNat)) true s)) ∧
    exec .permute s = .next (rejectedState 5#3 0x008#12 true s) ∧
    exec .hash s = .next (rejectedState 5#3 0x008#12 true s)

/-! ### Reads -/

/-- R201: a read of a mapped register returns its value with OKAY, busy or not, and has no side
effect; a seed window word at or above `SEED_CAP` is UNMAPPED (R35). -/
def Obligations.ReadsReturnTheRegister : Prop :=
  ∀ (s : State) (r : Reg),
    ((∀ j, r = .seed j → 4 * j.toNat < s.seedCap) →
      exec (.rd r) s = .next { s with busResp := some (.read (readValue r s) .okay) }) ∧
    (∀ j : BitVec 8, r = .seed j → s.seedCap ≤ 4 * j.toNat →
      exec (.rd r) s = .next (rejectedState 2#3 (BitVec.ofNat 12 (0x100 + 4 * j.toNat)) false s))

/-- R21 to R34: the value of each register as a number, field by field; a bit no field names
reads 0. -/
def Obligations.RegisterWordsFieldByField : Prop :=
  ∀ s : State,
    readValue .id s = 0x534F4E31#32 ∧
    (s.seedCap < 4096 → (readValue .params s).toNat = 90 + 2 ^ 8 * s.seedCap + 2 ^ 20 * 40) ∧
    readValue .ctrl s = 0#32 ∧
    (readValue .status s).toNat = s.status.busy.toNat + 2 * s.status.done.toNat +
      4 * s.status.err.toNat + 2 ^ 4 * s.status.errcode.toNat + 2 ^ 8 * s.status.round.toNat +
      2 ^ 16 * s.status.op.toNat ∧
    (readValue .indexLo s).toNat + 2 ^ 32 * (readValue .indexHi s).toNat = s.index.toNat ∧
    (readValue .listSizeLo s).toNat + 2 ^ 32 * (readValue .listSizeHi s).toNat =
      s.listSize.toNat ∧
    (readValue .seedLen s).toNat = s.seedLen.toNat ∧
    (readValue .resultLo s).toNat + 2 ^ 32 * (readValue .resultHi s).toNat = s.result.toNat ∧
    (readValue .irqEn s).toNat = s.irqEn.toNat ∧
    (readValue .irqStatus s).toNat = s.irqPend.toNat ∧
    (readValue .busErr s).toNat = s.busErr.offset.toNat + 2 ^ 12 * s.busErr.cause.toNat +
      2 ^ 15 * s.busErr.write.toNat + 2 ^ 31 * s.busErr.valid.toNat ∧
    (∀ k : Fin 8, readValue (.digest k) s = s.digest[k]) ∧
    (∀ j : BitVec 8, (readValue (.seed j) s).toNat = (readSeed s (4 * j.toNat)).toNat +
      2 ^ 8 * (readSeed s (4 * j.toNat + 1)).toNat +
      2 ^ 16 * (readSeed s (4 * j.toNat + 2)).toNat +
      2 ^ 24 * (readSeed s (4 * j.toNat + 3)).toNat)

/-! ### Operand writes -/

/-- R202, R203: an operand write while not busy writes its half register whole, every 32-bit value
being legal, and nothing else; while busy it is `BusError(BUSY)`. The words are `0xC010_dddddddd` to
`0xC01C_dddddddd`. -/
def Obligations.OperandWritesSetTheirHalf : Prop :=
  ∀ (s : State) (data : Word),
    (s.status.busy = false →
      exec (.wrIndexLo data) s =
        .next { s with indexLo := data, busResp := some (.write .okay) } ∧
      exec (.wrIndexHi data) s =
        .next { s with indexHi := data, busResp := some (.write .okay) } ∧
      exec (.wrListSizeLo data) s =
        .next { s with listSizeLo := data, busResp := some (.write .okay) } ∧
      exec (.wrListSizeHi data) s =
        .next { s with listSizeHi := data, busResp := some (.write .okay) }) ∧
    (s.status.busy = true →
      exec (.wrIndexLo data) s = .next (rejectedState 5#3 0x010#12 true s) ∧
      exec (.wrIndexHi data) s = .next (rejectedState 5#3 0x014#12 true s) ∧
      exec (.wrListSizeLo data) s = .next (rejectedState 5#3 0x018#12 true s) ∧
      exec (.wrListSizeHi data) s = .next (rejectedState 5#3 0x01C#12 true s)) ∧
    encode (.wrIndexLo data) = .td48 (0xC010#16 ++ data) ∧
    encode (.wrIndexHi data) = .td48 (0xC014#16 ++ data) ∧
    encode (.wrListSizeLo data) = .td48 (0xC018#16 ++ data) ∧
    encode (.wrListSizeHi data) = .td48 (0xC01C#16 ++ data)

/-- R75: storing a 64-bit value little-endian, low word first, sets the operand to that value. -/
def Obligations.TwoWordWritesSetTheOperand : Prop :=
  ∀ (s : State) (v : BitVec 64), s.status.busy = false →
    (∃ t u, exec (.wrIndexLo (v.setWidth 32)) s = .next t ∧
      exec (.wrIndexHi ((v >>> 32).setWidth 32)) t = .next u ∧ u.index = v ∧
      u.listSize = s.listSize) ∧
    (∃ t u, exec (.wrListSizeLo (v.setWidth 32)) s = .next t ∧
      exec (.wrListSizeHi ((v >>> 32).setWidth 32)) t = .next u ∧ u.listSize = v ∧
      u.index = s.index)

/-- R204: a legal `SEED_LEN` write while not busy sets the length, 0 and `SEED_CAP` included, and
nothing else; a value above `SEED_CAP` or with a bit above 10 set is ILLEGAL_VALUE, busy or not; a
legal value while busy is BUSY. The word is `0xC020_dddddddd`. -/
def Obligations.SeedLenWriteSetsTheLength : Prop :=
  ∀ (s : State) (data : Word), s.seedCap < 2 ^ 11 →
    (s.status.busy = false → data.toNat ≤ s.seedCap →
      ∃ t, exec (.wrSeedLen data) s = .next t ∧ t.seedLen.toNat = data.toNat ∧
        t.seedStr = s.seed.take data.toNat ∧
        t = { s with seedLen := t.seedLen, busResp := some (.write .okay) }) ∧
    (s.seedCap < data.toNat →
      exec (.wrSeedLen data) s = .next (rejectedState 4#3 0x020#12 true s)) ∧
    (s.status.busy = true → data.toNat ≤ s.seedCap →
      exec (.wrSeedLen data) s = .next (rejectedState 5#3 0x020#12 true s)) ∧
    encode (.wrSeedLen data) = .td48 (0xC020#16 ++ data)

/-- R205: a seed write while not busy sets the four bytes of its word, lane `k` to byte `4j+k`, and
no other byte and no other register; the word reads back as written (R34); above `SEED_LEN` it leaves
`SEEDSTR`, all that an operation reads of the buffer, as it was; while busy it is BUSY, and a word at
or above `SEED_CAP` is UNMAPPED. -/
def Obligations.SeedWriteSetsFourBytes : Prop :=
  ∀ (s : State) (j : BitVec 8) (data : Word),
    Config.legalSeedCap s.seedCap = true → s.seed.length = s.seedCap →
    (4 * j.toNat < s.seedCap → s.status.busy = false →
      ∃ t, exec (.wrSeed j data) s = .next t ∧
        (∀ k, k < 4 → (readSeed t (4 * j.toNat + k)).toNat = data.toNat / 2 ^ (8 * k) % 2 ^ 8) ∧
        (∀ a, a < 4 * j.toNat ∨ 4 * j.toNat + 4 ≤ a → readSeed t a = readSeed s a) ∧
        readValue (.seed j) t = data ∧ t.seed.length = s.seedCap ∧
        (s.seedLen.toNat ≤ 4 * j.toNat → t.seedStr = s.seedStr) ∧
        t = { s with seed := t.seed, busResp := some (.write .okay) }) ∧
    (4 * j.toNat < s.seedCap → s.status.busy = true → exec (.wrSeed j data) s =
      .next (rejectedState 5#3 (BitVec.ofNat 12 (0x100 + 4 * j.toNat)) true s)) ∧
    (s.seedCap ≤ 4 * j.toNat → exec (.wrSeed j data) s =
      .next (rejectedState 2#3 (BitVec.ofNat 12 (0x100 + 4 * j.toNat)) true s)) ∧
    encode (.wrSeed j data) = .td48 (BitVec.ofNat 16 (0xC100 + 4 * j.toNat) ++ data)

/-- R211, R212: the two legal values of a write of `IRQ_EN` set and clear `EN`; a write of 1 to
`IRQ_STATUS` clears `PEND` and a write of 0 changes nothing; any other value is ILLEGAL_VALUE;
neither is ever BUSY and neither changes anything else. The words are `0xC02C_dddddddd` and
`0xC030_dddddddd`. -/
def Obligations.InterruptRegisterWrites : Prop :=
  ∀ (s : State) (data : Word),
    (data = 0#32 → exec (.wrIrqEn data) s =
      .next { s with irqEn := false, busResp := some (.write .okay) }) ∧
    (data = 1#32 → exec (.wrIrqEn data) s =
      .next { s with irqEn := true, busResp := some (.write .okay) }) ∧
    (2 ≤ data.toNat → exec (.wrIrqEn data) s = .next (rejectedState 4#3 0x02C#12 true s)) ∧
    (data = 0#32 → exec (.wrIrqStatus data) s =
      .next { s with busResp := some (.write .okay) }) ∧
    (data = 1#32 → exec (.wrIrqStatus data) s =
      .next { s with irqPend := false, busResp := some (.write .okay) }) ∧
    (2 ≤ data.toNat → exec (.wrIrqStatus data) s =
      .next (rejectedState 4#3 0x030#12 true s)) ∧
    encode (.wrIrqEn data) = .td48 (0xC02C#16 ++ data) ∧
    encode (.wrIrqStatus data) = .td48 (0xC030#16 ++ data)

/-- R81: the operand, seed length, interrupt and seed writes are idempotent: one performed a second
time, in the state the first left, changes nothing more, accepted or rejected. -/
def Obligations.RegisterWritesAreIdempotent : Prop :=
  ∀ (i : Instr) (s t : State),
    ((∃ d, i = .wrIndexLo d) ∨ (∃ d, i = .wrIndexHi d) ∨ (∃ d, i = .wrListSizeLo d) ∨
      (∃ d, i = .wrListSizeHi d) ∨ (∃ d, i = .wrSeedLen d) ∨ (∃ d, i = .wrIrqEn d) ∨
      (∃ d, i = .wrIrqStatus d) ∨ (∃ j d, i = .wrSeed j d)) →
    exec i s = .next t → exec i t = .next t

/-! ### Commands -/

/-- R206: NOP, the word `0xC008_00000000`, returns OKAY and changes no state, busy or not. -/
def Obligations.NopChangesNothing : Prop :=
  encode .nop = .td48 0xC00800000000#48 ∧
  ∀ s : State, exec .nop s = .next { s with busResp := some (.write .okay) }

/-- R163: an accepted PERMUTE, the word `0xC008_00000001`, latches its operands, clears the flags of
the last operation, sets BUSY, and leaves `RESULT`, `DIGEST` and `PEND` alone; `STATUS` then reads
`0x00010001`. R162: `LIST_SIZE = 2^40` and `INDEX = LIST_SIZE − 1` pass. -/
def Obligations.PermuteAcceptance : Prop :=
  encode .permute = .td48 0xC00800000001#48 ∧
  ∀ s : State, s.status.busy = false → s.index.toNat < s.listSize.toNat →
    s.listSize.toNat ≤ 2 ^ 40 →
    ∃ t, exec .permute s = .next t ∧ t.widx.toNat = s.index.toNat ∧
      t.n.toNat = s.listSize.toNat ∧ t.status.word = 0x00010001#32 ∧
      t = { s with
        status := { busy := true, done := false, err := false, errcode := 0#4, round := 0#7,
                    op := 1#2 }
        widx := t.widx, n := t.n, round := 0#7, phase := .pivot
        busResp := some (.write .okay) }

/-- R161, R162, R245: a PERMUTE with `INDEX ≥ LIST_SIZE` fails with INVALID_INDEX, and otherwise one
with `LIST_SIZE > 2^40` fails with LIST_TOO_LARGE; the failure is complete at once, with an OKAY
response, `PEND` set, and nothing else changed. -/
def Obligations.PermutePreconditionFailures : Prop :=
  ∀ s : State, s.status.busy = false →
    (s.listSize.toNat ≤ s.index.toNat →
      ∃ t, exec .permute s = .next t ∧ t.status.word = 0x00010016#32 ∧
        t = { s with
          status := { busy := false, done := true, err := true, errcode := 1#4, round := 0#7,
                      op := 1#2 }
          irqPend := true, busResp := some (.write .okay) }) ∧
    (s.index.toNat < s.listSize.toNat → 2 ^ 40 < s.listSize.toNat →
      ∃ t, exec .permute s = .next t ∧ t.status.word = 0x00010026#32 ∧
        t = { s with
          status := { busy := false, done := true, err := true, errcode := 2#4, round := 0#7,
                      op := 1#2 }
          irqPend := true, busResp := some (.write .okay) })

/-- R140: an accepted HASH, the word `0xC008_00000002`, sets `STATUS` whole and starts the
controller's HASH phase; `PEND` and everything else are not changed. While busy it is
`BusError(BUSY)`. -/
def Obligations.HashAcceptance : Prop :=
  encode .hash = .td48 0xC00800000002#48 ∧
  ∀ s : State,
    (s.status.busy = false →
      ∃ t, exec .hash s = .next t ∧ t.status.word = 0x00020001#32 ∧
        t = { s with
          status := { busy := true, done := false, err := false, errcode := 0#4, round := 0#7,
                      op := 2#2 }
          phase := .hash, round := 0#7, busResp := some (.write .okay) }) ∧
    (s.status.busy = true → exec .hash s = .next (rejectedState 5#3 0x008#12 true s))

/-! ### The digest query subsystem -/

/-- R136, R137, R138: for every round and block, each query answers the digest of its message,
digest byte `k` at bits `[8k+7:8k]` of the answer, and changes nothing else; their `DQ42` words carry
`KIND`, `RND` and `BLK`. That a query can be run by itself (log entry 6), and that one with `RND` of 90
or more, which is never issued, is answered (log entry 9), are the model's choices. -/
def Obligations.QueriesAnswerTheDigest : Prop :=
  ∀ (s : State) (rnd : Byte) (blk : Word),
    (∃ t, exec .dqHost s = .next t ∧ t = { s with dqAnswer := t.dqAnswer } ∧
      (List.range 32).map (fun k => BitVec.ofNat 8 (t.dqAnswer.toNat / 2 ^ (8 * k))) =
        sha256Bytes (s.seed.take s.seedLen.toNat)) ∧
    (∃ t, exec (.dqPivot rnd) s = .next t ∧ t = { s with dqAnswer := t.dqAnswer } ∧
      (List.range 32).map (fun k => BitVec.ofNat 8 (t.dqAnswer.toNat / 2 ^ (8 * k))) =
        sha256Bytes (s.seed.take s.seedLen.toNat ++ [rnd])) ∧
    (∃ t, exec (.dqSource rnd blk) s = .next t ∧ t = { s with dqAnswer := t.dqAnswer } ∧
      (List.range 32).map (fun k => BitVec.ofNat 8 (t.dqAnswer.toNat / 2 ^ (8 * k))) =
        sha256Bytes (s.seed.take s.seedLen.toNat ++
          [rnd, blk.extractLsb' 0 8, blk.extractLsb' 8 8, blk.extractLsb' 16 8,
            blk.extractLsb' 24 8])) ∧
    encode .dqHost = .dq42 0#42 ∧
    encode (.dqPivot rnd) = .dq42 (1#2 ++ rnd ++ 0#32) ∧
    encode (.dqSource rnd blk) = .dq42 (2#2 ++ rnd ++ blk)

/-- R139, R131: in a legal state every message is at most `SEED_CAP + 5 ≤ 1029` bytes long, padding
makes whole blocks of 64 bytes, `⌈(L + 9)/64⌉` of them, and no message needs more than 17. -/
def Obligations.MessagesFitSeventeenBlocks : Prop :=
  ∀ (s : State) (rnd : Byte) (blk : Word), RegistersLegal s →
    (hostMessage s).length = s.seedLen.toNat ∧
    (pivotMessage rnd s).length = s.seedLen.toNat + 1 ∧
    (sourceMessage rnd blk s).length = s.seedLen.toNat + 5 ∧
    (sourceMessage rnd blk s).length ≤ s.seedCap + 5 ∧ s.seedCap + 5 ≤ 1029 ∧
    (∀ m : List Byte, (shaPad m).length % 64 = 0 ∧
      (shaPad m).length / 64 = (m.length + 9 + 63) / 64 ∧
      (m.length ≤ 1029 → (shaPad m).length / 64 ≤ 17))

/-- R141: the HASH step writes the eight digest words, each from its four digest bytes, sets DONE
and `PEND`, clears BUSY, and changes nothing else a host can read; from a legal state `STATUS` is
then `0x00020002`. -/
def Obligations.HashCompletion : Prop :=
  ∀ s : State, s.phase = .hash →
    ∃ t, controllerStep s = .next t ∧
      (∀ k : Fin 8, ∀ b, b < 4 →
        (readValue (.digest k) t).toNat / 2 ^ (8 * b) % 2 ^ 8 =
          ((sha256Bytes (s.seed.take s.seedLen.toNat)).getD (4 * k.val + b) 0#8).toNat) ∧
      t = { s with
        digest := t.digest, status := { s.status with busy := false, done := true }
        irqPend := true, phase := .idle, dqAnswer := t.dqAnswer } ∧
      (EngineInv s → t.status.word = 0x00020002#32)

/-! ### The controller -/

/-- R164, R165, R166, R170: the PIVOT step of round `r` on a working index below the list size: the
pivot is the exact remainder, the flip the non-negative remainder of the difference and the
conditional subtract or add, the position the maximum; the step changes nothing else a host can read. -/
def Obligations.PivotStepComputesSteps1To3 : Prop :=
  ∀ s : State, s.phase = .pivot → s.round.toNat ≤ 89 → s.widx.toNat < s.n.toNat →
    s.n.toNat ≤ 2 ^ 40 →
    ∃ t, controllerStep s = .next t ∧
      t.pivot.toNat = leNat ((sha256Bytes (s.seedStr ++ [BitVec.ofNat 8 s.round.toNat])).take 8) %
        s.n.toNat ∧
      (t.flip.toNat : Int) = ((t.pivot.toNat : Int) - s.widx.toNat) % s.n.toNat ∧
      t.flip.toNat = (if s.widx.toNat ≤ t.pivot.toNat then t.pivot.toNat - s.widx.toNat
        else t.pivot.toNat + s.n.toNat - s.widx.toNat) ∧
      t.pos.toNat = max s.widx.toNat t.flip.toNat ∧
      t = { s with pivot := t.pivot, flip := t.flip, pos := t.pos, phase := .source,
                   dqAnswer := t.dqAnswer }

/-- R167, R168, R169, R173, R171, R172, R175: the SOURCE step of round `r` selects bit `pos mod 8` of
byte `(pos mod 256) div 8` of the source digest, swaps when it is 1, and counts the round; after
round 89 it also writes the working index to `RESULT`, with the completion flags, in the same
step, and from a legal state `STATUS` is `0x00015A02`. It changes nothing else a host can read. -/
def Obligations.SourceStepComputesSteps4To7 : Prop :=
  ∀ s : State, s.phase = .source → s.round.toNat ≤ 89 →
    ∃ t, controllerStep s = .next t ∧
      t.widx = (if (((sha256Bytes (s.seedStr ++ [BitVec.ofNat 8 s.round.toNat] ++
          u32le (s.pos.toNat / 256))).getD (s.pos.toNat % 256 / 8) 0#8).toNat
            / 2 ^ (s.pos.toNat % 8)) % 2 = 1 then s.flip else s.widx) ∧
      t.round.toNat = s.round.toNat + 1 ∧
      (s.round.toNat < 89 →
        t = { s with
          widx := t.widx, round := t.round, status := { s.status with round := t.round }
          phase := .pivot, dqAnswer := t.dqAnswer }) ∧
      (s.round.toNat = 89 → t.result.toNat = t.widx.toNat ∧
        t = { s with
          widx := t.widx, round := t.round, resultLo := t.resultLo, resultHi := t.resultHi
          status := { s.status with round := t.round, busy := false, done := true }
          irqPend := true, phase := .idle, dqAnswer := t.dqAnswer } ∧
        (EngineInv s → t.status.word = 0x00015A02#32))

/-- R175, R171, R160: whatever has been interleaved with a running PERMUTE, the step that completes
it writes `permute(INDEX, LIST_SIZE, SEEDSTR)` to `RESULT`, with `STATUS = 0x00015A02` and `PEND`
set, and leaves the operands and the digest alone. -/
def Obligations.CompletionDeliversThePermutedIndex : Prop :=
  ∀ s : State, EngineInv s → completesPermute s →
    ∃ t, step s = .next t ∧
      t.result.toNat = permute s.index.toNat s.listSize.toNat s.seedStr ∧
      t.status.word = 0x00015A02#32 ∧ t.irqPend = true ∧ t.phase = .idle ∧
      t.index = s.index ∧ t.listSize = s.listSize ∧ t.seedStr = s.seedStr ∧
      t.digest = s.digest ∧ t.busErr = s.busErr ∧ t.irqEn = s.irqEn

/-- R174: a PERMUTE accepted in an idle engine takes one accepting step and exactly 180 controller
steps PIVOT(0), SOURCE(0), …, SOURCE(89): BUSY and the old `RESULT` until then, and then the permuted
index (R160, R175). With the schedule empty and nothing else to arrive the controller takes every
step after the first, which is the model's choice of that schedule, log entry 4. -/
def Obligations.PermuteTakes180Steps : Prop :=
  ∀ s : State, EngineInv s → s.phase = .idle → s.schedule = [] →
    s.events = [.transaction 0xC00800000001#48] →
    s.index.toNat < s.listSize.toNat → s.listSize.toNat ≤ 2 ^ 40 →
    (∀ k, k < 180 → ∃ u : State, Host.Core.run Sys2Proof.core (k + 1) s = .next u ∧
      u.phase = (if k % 2 = 0 then .pivot else .source) ∧ u.round.toNat = k / 2 ∧
      u.status.round.toNat = k / 2 ∧
      u.status.busy = true ∧ u.status.done = false ∧ u.result = s.result) ∧
    ∃ t : State, Host.Core.run Sys2Proof.core 181 s = .next t ∧
      t.result.toNat = permute s.index.toNat s.listSize.toNat s.seedStr ∧
      t.status.word = 0x00015A02#32 ∧ t.irqPend = true ∧ t.phase = .idle

/-- R51, R182 item 2: the result depends only on `INDEX`, `LIST_SIZE` and `SEEDSTR` at acceptance,
whatever came before: two engines that agree on these three give the same `RESULT`. Both run on the
schedule of log entry 4. -/
def Obligations.ResultDependsOnlyOnTheOperands : Prop :=
  ∀ s s' : State, EngineInv s → EngineInv s' → s.phase = .idle → s'.phase = .idle →
    s.schedule = [] → s'.schedule = [] →
    s.events = [.transaction 0xC00800000001#48] → s'.events = [.transaction 0xC00800000001#48] →
    s.index = s'.index → s.listSize = s'.listSize → s.seedStr = s'.seedStr →
    s.index.toNat < s.listSize.toNat → s.listSize.toNat ≤ 2 ^ 40 →
    ∃ t t' : State, Host.Core.run Sys2Proof.core 181 s = .next t ∧
      Host.Core.run Sys2Proof.core 181 s' = .next t' ∧ t.result = t'.result ∧
      t.status = t'.status

/-- R34: the operations read only `SEED[0:SEED_LEN]`: two states that differ only in seed bytes at or
above `SEED_LEN` take controller steps that differ only there. -/
def Obligations.SeedBytesAboveTheLengthAffectNothing : Prop :=
  ∀ (s t : State) (buffer : List Byte),
    buffer.take s.seedLen.toNat = s.seed.take s.seedLen.toNat →
    controllerStep s = .next t →
    controllerStep { s with seed := buffer } = .next { t with seed := buffer }

/-! ### The function -/

/-- R165, R180: on a pivot and a working index below the list size the datapath's conditional
subtract or add is the non-negative remainder of the difference, below the list size. -/
def Obligations.FlipIsTheNonNegativeRemainder : Prop :=
  ∀ (pivot widx : BitVec 40) (n : BitVec 41), n.toNat ≤ 2 ^ 40 → pivot.toNat < n.toNat →
    widx.toNat < n.toNat →
    ((flipOf pivot widx n).toNat : Int) = ((pivot.toNat : Int) - widx.toNat) % n.toNat ∧
    (flipOf pivot widx n).toNat < n.toNat

/-- R79: steps 5 and 6 together select bit `pos mod 256` of the digest read as a 256-bit
little-endian number. -/
def Obligations.SelectedBitIsTheDigestBit : Prop :=
  ∀ (d : Digest) (pos : BitVec 40),
    selectedBit d pos = d.getLsbD (pos.toNat % 256) ∧
    ((digestByte d ((pos.toNat % 256) / 8)).toNat >>> (pos.toNat % 8)) % 2 =
      (selectedBit d pos).toNat

/-- R181: each round is an involution on `[0, n)`; `permute` is a bijection on `[0, n)`, and its
inverse applies the rounds in descending order. -/
def Obligations.RoundsAreInvolutionsAndPermuteInverts : Prop :=
  ∀ (seed : List Byte) (n : Nat),
    (∀ r i, i < n → permuteRound seed n r i < n ∧
      permuteRound seed n r (permuteRound seed n r i) = i) ∧
    (∀ i, i < n → permute i n seed < n ∧ unpermuteRounds seed n 90 (permute i n seed) = i) ∧
    (∀ i, i < n → unpermuteRounds seed n 90 i < n ∧
      permute (unpermuteRounds seed n 90 i) n seed = i)

/-- R182 item 1: for `n > 0` the values `permute(0), …, permute(n−1)` are a rearrangement of
`0, …, n−1`, with no duplicates and no gaps. -/
def Obligations.PermuteIsABijection : Prop :=
  ∀ (seed : List Byte) (n : Nat), 0 < n →
    ((List.range n).map fun i => permute i n seed).Perm (List.range n)

/-- R182 item 3: `permute(0, 1, seed) = 0` for every seed. -/
def Obligations.SingletonMapsToItself : Prop := ∀ seed : List Byte, permute 0 1 seed = 0

/-! ### Invariants and whole-machine rules

`performsNext (.transaction w)` holds of a transaction that arrives as its `TD48` word and of a bus access
in the window at `BASE` that has this word (log entry 14). -/

/-- R281 against R25, R29, R32, R52: the engine is in a legal state after every reset. -/
def Obligations.ResetIsLegal : Prop :=
  EngineInv State.reset ∧
  ∀ page cap resets : Nat, Config.legalSeedCap cap = true →
    EngineInv (State.afterReset page cap resets)

/-- R25, R28, R29, R32, R34, R52, R88, I8: every step keeps the engine legal: the legal combinations
of `STATUS`, no reserved code in `STATUS` or `BUSERR`, `SEED_LEN ≤ SEED_CAP`, `RESULT_HI[31:8] = 0`,
the controller at a listed position, and a running PERMUTE's working index that of R160 after
`int.round` rounds on the operands that still stand in the registers. -/
def Obligations.EveryStepKeepsTheEngineLegal : Prop :=
  ∀ s t : State, EngineInv s → step s = .next t → EngineInv t

/-- R246: from a legal state no step faults, and the only refusal is of an arrival that spells
nothing (log entry 9); the fault of log entry 10 never arises. -/
def Obligations.LegalStatesNeverFault : Prop :=
  ∀ s : State, EngineInv s →
    (∃ t, step s = .next t) ∨
    (∃ why, step s = .refused (.spellsNothing why) ∧
      ((∃ w, performsNext (.transaction w) s ∧ decode s.seedCap (.td48 w) = .invalid why) ∨
        (∃ w, performsNext (.query w) s ∧ decode s.seedCap (.dq42 w) = .invalid why)))

/-- R300, R246: an operation that runs ends after finitely many steps, under any schedule and any
arrivals that spell something: within the schedule's length and 180 more. That the controller takes
the steps past the schedule's end is the model's choice of weak fairness, log entry 4. -/
def Obligations.EveryOperationEnds : Prop :=
  ∀ s : State, EngineInv s → s.status.busy = true →
    (∀ w, Event.transaction w ∈ s.events → ∀ why, decode s.seedCap (.td48 w) ≠ .invalid why) →
    (∀ w, Event.query w ∈ s.events → ∀ why, decode s.seedCap (.dq42 w) ≠ .invalid why) →
    ∃ k, k ≤ s.schedule.length + 180 ∧ ∃ t : State,
      Host.Core.run Sys2Proof.core k s = .next t ∧ t.status.busy = false

/-- R246, R25: BUSY is cleared by the completion of the operation, by SOFT_RESET and by reset, and
by nothing else. -/
def Obligations.BusyEndsOnlyByCompletionOrReset : Prop :=
  ∀ s t : State, step s = .next t → s.status.busy = true → t.status.busy = false →
    completesPermute s ∨ completesHash s ∨
    performsNext (.transaction 0xC00800000003#48) s ∨ performsNext .reset s

/-- R88: while an operation runs on, no step changes its operands. -/
def Obligations.OperandsAreFixedWhileBusy : Prop :=
  ∀ s t : State, step s = .next t → s.status.busy = true → t.status.busy = true →
    t.index = s.index ∧ t.listSize = s.listSize ∧ t.seedLen = s.seedLen ∧ t.seed = s.seed

/-- R250: `PEND` is set at exactly three events, a PERMUTE completion, a PERMUTE precondition failure
and a HASH completion, and is cleared only by `ack`, SOFT_RESET and reset. -/
def Obligations.PendingIsSetAtThreeEvents : Prop :=
  ∀ s t : State, step s = .next t →
    (s.irqPend = false →
      (t.irqPend = true ↔
        completesPermute s ∨ completesHash s ∨
        (performsNext (.transaction 0xC00800000001#48) s ∧ s.status.busy = false ∧
          (s.listSize.toNat ≤ s.index.toNat ∨ 2 ^ 40 < s.listSize.toNat)))) ∧
    (s.irqPend = true →
      (t.irqPend = false ↔
        performsNext (.transaction 0xC03000000001#48) s ∨
        performsNext (.transaction 0xC00800000003#48) s ∨ performsNext .reset s))

/-- R29, R82: `RESULT` changes only at a PERMUTE completion, at SOFT_RESET and at reset. -/
def Obligations.ResultChangesOnlyAtCompletion : Prop :=
  ∀ s t : State, step s = .next t → t.result ≠ s.result →
    completesPermute s ∨ performsNext (.transaction 0xC00800000003#48) s ∨ performsNext .reset s

/-- R33: the digest registers change only at a HASH completion, at SOFT_RESET and at reset. -/
def Obligations.DigestChangesOnlyAtHashCompletion : Prop :=
  ∀ s t : State, step s = .next t → t.digest ≠ s.digest →
    completesHash s ∨ performsNext (.transaction 0xC00800000003#48) s ∨ performsNext .reset s

/-- R251, R211, R207: `irq` is `EN ∧ PEND` at every step: enabling while `PEND = 1` asserts it at
once, an `ack` and a SOFT_RESET deassert it. -/
def Obligations.IrqFollowsItsRegisters : Prop :=
  ∀ s : State, s.irq = (s.irqEn && s.irqPend) ∧
    (∃ t, exec (.wrIrqEn 1#32) s = .next t ∧ t.irq = s.irqPend) ∧
    (∃ t, exec (.wrIrqEn 0#32) s = .next t ∧ t.irq = false) ∧
    (∃ t, exec (.wrIrqStatus 1#32) s = .next t ∧ t.irq = false) ∧
    (∃ t, exec (.wrIrqStatus 0#32) s = .next t ∧ t.irq = s.irq) ∧
    (∃ t, exec .softReset s = .next t ∧ t.irq = false)

/-! ### The window at `BASE` -/

/-- R72, R83, R200: a host transaction at a bus address in `[BASE, BASE + 4096)` has the effect of the
access function at the offset `addr − BASE`; one at any other address never reaches the engine, and
nothing of it changes. That the model sees such an access arrive, and lets it pass in one step of the
host, is its own choice, log entry 14. -/
def Obligations.BusAddressesSelectTheWindow : Prop :=
  ∀ (s : State) (rest : List Event) (addr : Nat) (size : AccessSize) (data : Word),
    Config.legalSeedCap s.seedCap = true → nextAgent s = .host →
    let after : State := { s with events := rest, schedule := s.schedule.tail }
    (s.events = .access (.read addr size) :: rest →
      step s = if s.base ≤ addr ∧ addr < s.base + 4096 then
          access (BitVec.ofNat 12 (addr - s.base)) size.bytes false 0#32 after
        else .next after) ∧
    (s.events = .access (.write addr size data) :: rest →
      step s = if s.base ≤ addr ∧ addr < s.base + 4096 then
          access (BitVec.ofNat 12 (addr - s.base)) size.bytes true data after
        else .next after)

/-- R7: `BASE` is a multiple of 4096, every multiple of 4096 is the `BASE` of some engine, and no step,
reset or not, changes `BASE` or `SEED_CAP`. That the two parameters stand in the state is the model's
choice, log entries 1 and 14. -/
def Obligations.ParametersAreFixed : Prop :=
  (∀ s : State, s.base % 4096 = 0) ∧
  (∀ base, base % 4096 = 0 → ∃ page, ∀ cap resets,
    (State.afterReset page cap resets).base = base) ∧
  ∀ s t : State, step s = .next t → t.base = s.base ∧ t.seedCap = s.seedCap

/-- R7, R83, R264: nothing but the placement depends on `BASE`. An engine placed elsewhere, with the
accesses that are to arrive moved with it, takes the same step, whatever its outcome: an engine has no
identifier besides its `BASE`. The bus access as an arrival is the model's choice, log entry 14. -/
def Obligations.PlacementChangesNothing : Prop :=
  ∀ (pages : Nat) (s : State),
    (∀ t, step s = .next t → step (s.movedBy pages) = .next (t.movedBy pages)) ∧
    (∀ f, step s = .fault f → step (s.movedBy pages) = .fault f) ∧
    (∀ r, step s = .refused r → step (s.movedBy pages) = .refused r)
end

