-- ==== Sys2Proof/Laws/Bits.lean ====
section
/-! SUPPORT. Bit fields and byte order: the fields of the frames, of the register words and of a
digest as numbers, and what packing and unpacking them keeps. -/

namespace Sys2Proof

/-- Concatenation as a number (R9). -/
theorem toNat_append_mul {m n : Nat} (x : BitVec m) (y : BitVec n) :
    (x ++ y).toNat = x.toNat * 2 ^ n + y.toNat := by
  rw [BitVec.toNat_append, ← Nat.shiftLeft_add_eq_or_of_lt y.isLt, Nat.shiftLeft_eq]

theorem ofBool_toNat (b : Bool) : (BitVec.ofBool b).toNat = b.toNat := by cases b <;> rfl

/-- A bit of a word as a number. -/
theorem toNat_getLsbD {n : Nat} (x : BitVec n) (k : Nat) :
    (x.getLsbD k).toNat = x.toNat / 2 ^ k % 2 := by
  rw [BitVec.getLsbD, Nat.testBit, Nat.shiftRight_eq_div_pow, Nat.and_comm, Nat.and_one_is_mod]
  rcases Nat.mod_two_eq_zero_or_one (x.toNat / 2 ^ k) with h | h <;> simp [h]

theorem toNat_extract {n : Nat} (x : BitVec n) (start len : Nat) :
    (x.extractLsb' start len).toNat = x.toNat / 2 ^ start % 2 ^ len := by
  rw [BitVec.extractLsb'_toNat, Nat.shiftRight_eq_div_pow]

theorem Descriptor.ext' {a b : Descriptor} (h1 : a.w = b.w) (h2 : a.sz = b.sz)
    (h3 : a.rsv = b.rsv) (h4 : a.off = b.off) (h5 : a.data = b.data) : a = b := by
  cases a; cases b; simp_all

/-- The fields of a packed descriptor as one number. -/
theorem descriptorBits_toNat (d : Descriptor) :
    (descriptorBits d).toNat =
      d.w.toNat * 2 ^ 47 + d.sz.toNat * 2 ^ 45 + d.rsv.toNat * 2 ^ 44 + d.off.toNat * 2 ^ 32 +
        d.data.toNat := by
  simp only [descriptorBits, toNat_append_mul, ofBool_toNat]
  omega

theorem bool_eq_of_toNat {a b : Bool} (h : a.toNat = b.toNat) : a = b := by
  cases a <;> cases b <;> simp_all

theorem descriptorOfBits_descriptorBits (d : Descriptor) :
    descriptorOfBits (descriptorBits d) = d := by
  have hw := Bool.toNat_lt d.w
  have hr := Bool.toNat_lt d.rsv
  have hs := d.sz.isLt
  have ho := d.off.isLt
  have hd := d.data.isLt
  apply Descriptor.ext'
  · apply bool_eq_of_toNat
    simp only [descriptorOfBits, toNat_getLsbD, descriptorBits_toNat]
    omega
  · apply BitVec.eq_of_toNat_eq
    simp only [descriptorOfBits, toNat_extract, descriptorBits_toNat]
    omega
  · apply bool_eq_of_toNat
    simp only [descriptorOfBits, toNat_getLsbD, descriptorBits_toNat]
    omega
  · apply BitVec.eq_of_toNat_eq
    simp only [descriptorOfBits, toNat_extract, descriptorBits_toNat]
    omega
  · apply BitVec.eq_of_toNat_eq
    simp only [descriptorOfBits, toNat_extract, descriptorBits_toNat]
    omega

theorem descriptorBits_descriptorOfBits (w : BitVec 48) :
    descriptorBits (descriptorOfBits w) = w := by
  apply BitVec.eq_of_toNat_eq
  have := w.isLt
  simp only [descriptorBits_toNat, descriptorOfBits, toNat_getLsbD, toNat_extract]
  omega

theorem queryBits_toNat (q : Query) :
    (queryBits q).toNat = q.kind.toNat * 2 ^ 40 + q.rnd.toNat * 2 ^ 32 + q.blk.toNat := by
  simp only [queryBits, toNat_append_mul]
  omega

theorem Query.ext' {a b : Query} (h1 : a.kind = b.kind) (h2 : a.rnd = b.rnd)
    (h3 : a.blk = b.blk) : a = b := by
  cases a; cases b; simp_all

theorem queryOfBits_queryBits (q : Query) : queryOfBits (queryBits q) = q := by
  have hk := q.kind.isLt
  have hr := q.rnd.isLt
  have hb := q.blk.isLt
  apply Query.ext' <;> apply BitVec.eq_of_toNat_eq <;>
    simp only [queryOfBits, toNat_extract, queryBits_toNat] <;> omega

theorem queryBits_queryOfBits (w : BitVec 42) : queryBits (queryOfBits w) = w := by
  apply BitVec.eq_of_toNat_eq
  have := w.isLt
  simp only [queryBits_toNat, queryOfBits, toNat_extract]
  omega

namespace Machine

/-! ### The register words -/

theorem status_word_toNat (t : Status) :
    t.word.toNat = t.busy.toNat + 2 * t.done.toNat + 4 * t.err.toNat + 2 ^ 4 * t.errcode.toNat +
      2 ^ 8 * t.round.toNat + 2 ^ 16 * t.op.toNat := by
  simp only [Status.word, toNat_append_mul, ofBool_toNat, BitVec.toNat_ofNat]
  omega

theorem busErr_word_toNat (b : BusErr) :
    b.word.toNat = b.offset.toNat + 2 ^ 12 * b.cause.toNat + 2 ^ 15 * b.write.toNat +
      2 ^ 31 * b.valid.toNat := by
  simp only [BusErr.word, toNat_append_mul, ofBool_toNat, BitVec.toNat_ofNat]
  omega

theorem flagWord_toNat (b : Bool) : (flagWord b).toNat = b.toNat := by
  simp only [flagWord, toNat_append_mul, ofBool_toNat, BitVec.toNat_ofNat]
  omega

theorem ofLanes_toNat (b0 b1 b2 b3 : Byte) :
    (ofLanes b0 b1 b2 b3).toNat =
      b0.toNat + 2 ^ 8 * b1.toNat + 2 ^ 16 * b2.toNat + 2 ^ 24 * b3.toNat := by
  simp only [ofLanes, toNat_append_mul]
  omega

theorem lane_toNat (w : Word) (k : Nat) : (lane w k).toNat = w.toNat / 2 ^ (8 * k) % 2 ^ 8 :=
  toNat_extract w _ _

/-- The four lanes of a word give the word back. -/
theorem ofLanes_lanes (w : Word) : ofLanes (lane w 0) (lane w 1) (lane w 2) (lane w 3) = w := by
  apply BitVec.eq_of_toNat_eq
  have := w.isLt
  simp only [ofLanes_toNat, lane_toNat]
  omega

/-- `INDEX` as a number. -/
theorem index_toNat (s : State) :
    s.index.toNat = s.indexLo.toNat + 2 ^ 32 * s.indexHi.toNat := by
  simp only [State.index, toNat_append_mul]
  omega

/-- `LIST_SIZE` as a number. -/
theorem listSize_toNat (s : State) :
    s.listSize.toNat = s.listSizeLo.toNat + 2 ^ 32 * s.listSizeHi.toNat := by
  simp only [State.listSize, toNat_append_mul]
  omega

/-- `RESULT` as a number. -/
theorem result_toNat (s : State) :
    s.result.toNat = s.resultLo.toNat + 2 ^ 32 * s.resultHi.toNat := by
  simp only [State.result, toNat_append_mul]
  omega

/-! ### Byte strings read little-endian -/

theorem leNat_lt (l : List Byte) : leNat l < 256 ^ l.length := by
  induction l with
  | nil => simp [leNat]
  | cons b rest ih =>
    have := b.isLt
    simp only [leNat, List.length_cons, Nat.pow_succ]
    omega

/-- Byte `k` of a byte string is digit `k` of its little-endian number. -/
theorem leNat_digit (l : List Byte) (k : Nat) :
    leNat l / 256 ^ k % 256 = (l.getD k 0#8).toNat := by
  induction l generalizing k with
  | nil => simp [leNat]
  | cons b rest ih =>
    have := b.isLt
    cases k with
    | zero => simp only [leNat, Nat.pow_zero, Nat.div_one, List.getD_cons_zero]; omega
    | succ k =>
      have h : (b.toNat + 256 * leNat rest) / 256 ^ (k + 1) = leNat rest / 256 ^ k := by
        rw [Nat.pow_succ', ← Nat.div_div_eq_div_mul]
        congr 1
        omega
      simp only [leNat, h, List.getD_cons_succ, ih]

/-- Digest byte `k` as a number. -/
theorem digestByte_toNat (d : Digest) (k : Nat) :
    (digestByte d k).toNat = d.toNat / 2 ^ (8 * k) % 2 ^ 8 := toNat_extract d _ _

/-- The bytes of a digest packed from 32 bytes are those bytes. -/
theorem digestByte_digestOfBytes (l : List Byte) (h : l.length = 32) (k : Nat) :
    digestByte (digestOfBytes l) k = l.getD k 0#8 := by
  apply BitVec.eq_of_toNat_eq
  have hl := leNat_lt l
  rw [h] at hl
  have hd : (digestOfBytes l).toNat = leNat l := by
    rw [digestOfBytes, BitVec.toNat_ofNat]
    exact Nat.mod_eq_of_lt (lt_of_lt_of_eq hl (by norm_num))
  rw [digestByte_toNat, ← leNat_digit, hd, Nat.pow_mul]
  norm_num

theorem digestLow64_toNat (d : Digest) : digestLow64 d = d.toNat % 2 ^ 64 := by
  have h : (List.range 8).map (digestByte d) =
    [digestByte d 0, digestByte d 1, digestByte d 2, digestByte d 3, digestByte d 4,
     digestByte d 5, digestByte d 6, digestByte d 7] := rfl
  simp only [digestLow64, h, leNat, digestByte_toNat]
  omega

/-! ### SHA-256 lengths -/

theorem be32bytes_length (w : Word) : (be32bytes w).length = 4 := rfl

theorem hashBytes_length (r : HashWords) : (hashBytes r).length = 32 := by
  simp [hashBytes, be32bytes_length]

/-- A digest has 32 bytes (R130). -/
theorem sha256Bytes_length (m : List Byte) : (sha256Bytes m).length = 32 := by
  rw [sha256Bytes, hashBytes_length]

/-- The bytes of the port's answer are those of the digest (R103, R131). -/
theorem digestByte_sha256 (m : List Byte) (k : Nat) :
    digestByte (sha256 m) k = (sha256Bytes m).getD k 0#8 := by
  rw [sha256, digestByte_digestOfBytes _ (sha256Bytes_length m)]

/-- The padded message is whole blocks (R131, R139). -/
theorem shaPad_length (m : List Byte) :
    (shaPad m).length = 64 * ((m.length + 9 + 63) / 64) := by
  simp only [shaPad, shaPadLength, be64, List.length_append, List.length_replicate,
    List.length_map, List.length_cons, List.length_nil]
  omega

end Machine

end Sys2Proof
end

