-- ==== Sys2Proof/Laws/Decode.lean ====
section
/-! SUPPORT. The register map and the decoders: each register's offset finds it again, and what each
decoder answers. -/

namespace Sys2Proof

/-! ### The register map -/

/-- The offset of every register is a multiple of 4 (R20). -/
theorem regOffset_aligned (r : Reg) : (regOffset r).extractLsb' 0 2 = 0#2 := by
  apply BitVec.eq_of_toNat_eq
  cases r with
  | digest k => have := k.isLt; simp only [regOffset, toNat_extract, BitVec.toNat_ofNat]; omega
  | seed j => have := j.isLt; simp only [regOffset, toNat_extract, BitVec.toNat_ofNat]; omega
  | _ => decide

theorem seedMapped_iff (cap : Nat) (j : BitVec 8) :
    seedMapped cap j = true ↔ 4 * j.toNat < cap := by simp [seedMapped]

theorem legalSeedCap_iff (cap : Nat) :
    Config.legalSeedCap cap = true ↔ cap % 4 = 0 ∧ 32 ≤ cap ∧ cap ≤ 1024 := by
  simp [Config.legalSeedCap, and_assoc]

theorem digest_offset_toNat (k : Fin 8) :
    (regOffset (.digest k)).toNat = 0x040 + 4 * k.val := by
  have := k.isLt
  simp only [regOffset, BitVec.toNat_ofNat]
  omega

theorem seed_offset_toNat (j : BitVec 8) :
    (regOffset (.seed j)).toNat = 0x100 + 4 * j.toNat := by
  have := j.isLt
  simp only [regOffset, BitVec.toNat_ofNat]
  omega

/-- The lookup above the named registers, which stand below 0x038. -/
theorem regOfOffset_high (cap : Nat) (off : Offset) (h : 0x038 ≤ off.toNat) :
    regOfOffset cap off =
      if 0x040 ≤ off.toNat ∧ off.toNat < 0x060 then
        some (.digest (Fin.ofNat 8 ((off.toNat - 0x040) / 4)))
      else if 0x100 ≤ off.toNat ∧ off.toNat < 0x100 + cap then
        some (.seed (BitVec.ofNat 8 ((off.toNat - 0x100) / 4)))
      else none := by
  have hne : ∀ k : Nat, k < 0x038 → off ≠ BitVec.ofNat 12 k := by
    rintro k hk rfl
    rw [BitVec.toNat_ofNat] at h
    omega
  simp only [regOfOffset]
  rw [if_neg (hne _ (by decide)), if_neg (hne _ (by decide)), if_neg (hne _ (by decide)),
    if_neg (hne _ (by decide)), if_neg (hne _ (by decide)), if_neg (hne _ (by decide)),
    if_neg (hne _ (by decide)), if_neg (hne _ (by decide)), if_neg (hne _ (by decide)),
    if_neg (hne _ (by decide)), if_neg (hne _ (by decide)), if_neg (hne _ (by decide)),
    if_neg (hne _ (by decide)), if_neg (hne _ (by decide))]

/-- A mapped register is found at its offset (R20). -/
theorem regOfOffset_regOffset (cap : Nat) (r : Reg) (h : r.mapped cap = true) :
    regOfOffset cap (regOffset r) = some r := by
  cases r with
  | digest k =>
    have hk := k.isLt
    rw [regOfOffset_high cap _ (by rw [digest_offset_toNat]; omega), digest_offset_toNat,
      if_pos (by omega)]
    congr 2
    apply Fin.ext
    simp only [Fin.ofNat]
    omega
  | seed j =>
    have hj := j.isLt
    have hm : 4 * j.toNat < cap := (seedMapped_iff cap j).mp h
    rw [regOfOffset_high cap _ (by rw [seed_offset_toNat]; omega), seed_offset_toNat,
      if_neg (by omega), if_pos (by omega)]
    congr 2
    apply BitVec.eq_of_toNat_eq
    rw [BitVec.toNat_ofNat]
    omega
  | _ => rfl

/-- What an aligned offset finds is a mapped register at that offset (R20, R35). -/
theorem regOfOffset_some (cap : Nat) (off : Offset) (r : Reg)
    (hcap : Config.legalSeedCap cap = true) (ha : off.toNat % 4 = 0)
    (h : regOfOffset cap off = some r) : regOffset r = off ∧ r.mapped cap = true := by
  obtain ⟨-, -, hle⟩ := (legalSeedCap_iff cap).mp hcap
  have ho := off.isLt
  by_cases hlow : 0x038 ≤ off.toNat
  · rw [regOfOffset_high cap off hlow] at h
    split at h
    · obtain rfl : _ = r := Option.some.inj h
      refine ⟨BitVec.eq_of_toNat_eq ?_, rfl⟩
      rw [digest_offset_toNat]
      simp only [Fin.ofNat]
      omega
    · split at h
      · obtain rfl : _ = r := Option.some.inj h
        refine ⟨BitVec.eq_of_toNat_eq ?_, (seedMapped_iff _ _).mpr ?_⟩
        · rw [seed_offset_toNat, BitVec.toNat_ofNat]; omega
        · rw [BitVec.toNat_ofNat]; omega
      · cases h
  · obtain ⟨k, hk, rfl⟩ : ∃ k, k < 14 ∧ off = BitVec.ofNat 12 (4 * k) :=
      ⟨off.toNat / 4, by omega, BitVec.eq_of_toNat_eq (by rw [BitVec.toNat_ofNat]; omega)⟩
    interval_cases k <;>
      (obtain rfl : _ = r := Option.some.inj h; exact ⟨rfl, rfl⟩)

/-! ### The window at `BASE` -/

/-- The two answers of `windowOffset`: the offset of an address in the window, or nothing (R72, R83). -/
theorem windowOffset_cases (base addr : Nat) :
    (base ≤ addr ∧ addr < base + 4096 ∧
      windowOffset base addr = some (BitVec.ofNat 12 (addr - base))) ∨
    ((addr < base ∨ base + 4096 ≤ addr) ∧ windowOffset base addr = none) := by
  by_cases h : base ≤ addr ∧ addr < base + 4096
  · exact .inl ⟨h.1, h.2, if_pos h⟩
  · exact .inr ⟨by omega, if_neg h⟩

/-- The offset of an address in the window, as a number. -/
theorem windowOffset_toNat (base addr : Nat) (off : Offset)
    (h : windowOffset base addr = some off) : addr = base + off.toNat := by
  rcases windowOffset_cases base addr with ⟨h1, h2, e⟩ | ⟨_, e⟩ <;> rw [e] at h <;> cases h
  rw [BitVec.toNat_ofNat]
  omega

/-- The offset depends only on how far the address is from `BASE`. -/
theorem windowOffset_add (base addr d : Nat) :
    windowOffset (base + d) (addr + d) = windowOffset base addr := by
  rcases windowOffset_cases base addr with ⟨h1, h2, e⟩ | ⟨h, e⟩ <;> rw [e]
  · rw [windowOffset, Config.windowBytes, if_pos (by omega), Nat.add_sub_add_right]
  · rw [windowOffset, Config.windowBytes, if_neg (by omega)]

/-- A bus transaction always spells a transaction (R72, R102). -/
theorem descriptorError_busDescriptor (a : BusAccess) (off : Offset) :
    descriptorError (busDescriptor a off) = none := by
  rcases a with ⟨_, _ | _ | _⟩ | ⟨_, _ | _ | _, _⟩ <;> simp [descriptorError, busDescriptor, AccessSize.code]

/-! ### The decoders -/

/-- The alignment check of a descriptor as a number (R73). -/
theorem descriptorAligned_iff (d : Descriptor) :
    descriptorAligned d = true ↔ d.sz = 2#2 ∧ d.off.toNat % 4 = 0 := by
  have h : d.off.extractLsb' 0 2 = 0#2 ↔ d.off.toNat % 4 = 0 := by
    rw [← BitVec.toNat_inj, toNat_extract]
    simp
  simp [descriptorAligned, h]

/-- A read descriptor of a mapped register decodes to its read (R105). -/
theorem decode_readFrame (cap : Nat) (r : Reg) (h : r.mapped cap = true) :
    decode cap (readFrame r) = .instr (.rd r) := by
  simp [decode, readFrame, descriptorOfBits_descriptorBits, decodeDescriptor, descriptorError,
    descriptorAligned, regOffset_aligned, regOfOffset_regOffset cap r h]

/-- A write descriptor of a mapped register decodes as its write (R105). -/
theorem decode_writeFrame (cap : Nat) (r : Reg) (data : Word) (h : r.mapped cap = true) :
    decode cap (writeFrame r data) = decodeWrite r (regOffset r) data := by
  simp [decode, writeFrame, descriptorOfBits_descriptorBits, decodeDescriptor, descriptorError,
    descriptorAligned, regOffset_aligned, regOfOffset_regOffset cap r h]

theorem decode_dq42 (cap : Nat) (q : Query) :
    decode cap (.dq42 (queryBits q)) = decodeQuery q := by
  rw [decode, queryOfBits_queryBits]

/-- `CMD32`: the four legal words and no other (R101). -/
theorem decodeCommand_eq (data : Word) :
    decodeCommand data =
      if data = 0#32 then some .nop
      else if data = 1#32 then some .permute
      else if data = 2#32 then some .hash
      else if data = 3#32 then some .softReset
      else none := by
  have hd := data.isLt
  simp only [decodeCommand, ← BitVec.toNat_inj, ne_eq, toNat_extract, BitVec.toNat_ofNat]
  split <;> repeat' split
  all_goals first
    | rfl
    | (exfalso; omega)

/-- A descriptor that spells a transaction (R102). -/
theorem descriptorError_none (d : Descriptor) (h : descriptorError d = none) :
    d.sz ≠ 3#2 ∧ d.rsv = false ∧ (d.w = false → d.data = 0#32) := by
  unfold descriptorError at h
  split at h
  · cases h
  · split at h
    · cases h
    · split at h
      · cases h
      · simp_all

/-- A write is read as its instruction or rejected, by a cause only writes raise (R105). -/
theorem decodeWrite_cases (r : Reg) (off : Offset) (data : Word) :
    (∃ i, decodeWrite r off data = .instr i) ∨
    decodeWrite r off data = .busError .illegalValue off true ∨
    decodeWrite r off data = .busError .readOnly off true := by
  cases r <;> simp only [decodeWrite]
  case ctrl => cases decodeCommand data <;> simp
  all_goals simp

/-- Where a descriptor decodes to an instruction, its fields say which (R105). -/
theorem decodeDescriptor_instr (cap : Nat) (d : Descriptor) (i : Instr)
    (h : decodeDescriptor cap d = .instr i) :
    descriptorError d = none ∧ descriptorAligned d = true ∧
    ∃ r, regOfOffset cap d.off = some r ∧
      ((d.w = true ∧ decodeWrite r d.off d.data = .instr i) ∨ (d.w = false ∧ i = .rd r)) := by
  unfold decodeDescriptor at h
  split at h
  · cases h
  · split at h
    · split at h
      · cases h
      · rename_i r hr
        split at h
        · exact ⟨by assumption, by assumption, r, hr, .inl ⟨by assumption, h⟩⟩
        · exact ⟨by assumption, by assumption, r, hr, .inr ⟨by simp_all, by cases h; rfl⟩⟩
    · cases h

/-- Where the decoding of a descriptor rejects the access, it records the access (R105, R240); READ_ONLY
and ILLEGAL_VALUE are raised by writes alone (R241). -/
theorem decodeDescriptor_busError (cap : Nat) (d : Descriptor) (c : BusCause) (off : Offset)
    (w : Bool) (h : decodeDescriptor cap d = .busError c off w) :
    off = d.off ∧ w = d.w ∧ (c = .misaligned ∨ c = .unmapped ∨ w = true) := by
  unfold decodeDescriptor at h
  split at h
  · cases h
  · split at h
    · split at h
      · cases h
        simp
      · split at h
        · rename_i r _ hw
          rcases decodeWrite_cases r d.off d.data with ⟨i, hi⟩ | hi | hi <;> rw [hi] at h <;> cases h
          · simp [hw]
          · simp [hw]
        · cases h
    · cases h
      simp

end Sys2Proof
end

