-- ==== Sys2Proof/Laws/State.lean ====
section
/-! SUPPORT. What each update of the state does to each field: one lemma per field per update, true
by `rfl`, so that no proof unfolds an update. -/

namespace Sys2Proof.Machine

/-! Machine/Ops.lean: the response to a transaction. -/

@[simp] theorem respond_basePage (r : BusResponse) (s : State) :
    (respond r s).basePage = s.basePage := rfl
@[simp] theorem respond_seedCap (r : BusResponse) (s : State) :
    (respond r s).seedCap = s.seedCap := rfl
@[simp] theorem respond_status (r : BusResponse) (s : State) :
    (respond r s).status = s.status := rfl
@[simp] theorem respond_indexLo (r : BusResponse) (s : State) :
    (respond r s).indexLo = s.indexLo := rfl
@[simp] theorem respond_indexHi (r : BusResponse) (s : State) :
    (respond r s).indexHi = s.indexHi := rfl
@[simp] theorem respond_listSizeLo (r : BusResponse) (s : State) :
    (respond r s).listSizeLo = s.listSizeLo := rfl
@[simp] theorem respond_listSizeHi (r : BusResponse) (s : State) :
    (respond r s).listSizeHi = s.listSizeHi := rfl
@[simp] theorem respond_seedLen (r : BusResponse) (s : State) :
    (respond r s).seedLen = s.seedLen := rfl
@[simp] theorem respond_resultLo (r : BusResponse) (s : State) :
    (respond r s).resultLo = s.resultLo := rfl
@[simp] theorem respond_resultHi (r : BusResponse) (s : State) :
    (respond r s).resultHi = s.resultHi := rfl
@[simp] theorem respond_irqEn (r : BusResponse) (s : State) : (respond r s).irqEn = s.irqEn := rfl
@[simp] theorem respond_irqPend (r : BusResponse) (s : State) :
    (respond r s).irqPend = s.irqPend := rfl
@[simp] theorem respond_busErr (r : BusResponse) (s : State) :
    (respond r s).busErr = s.busErr := rfl
@[simp] theorem respond_digest (r : BusResponse) (s : State) :
    (respond r s).digest = s.digest := rfl
@[simp] theorem respond_seed (r : BusResponse) (s : State) : (respond r s).seed = s.seed := rfl
@[simp] theorem respond_phase (r : BusResponse) (s : State) : (respond r s).phase = s.phase := rfl
@[simp] theorem respond_round (r : BusResponse) (s : State) : (respond r s).round = s.round := rfl
@[simp] theorem respond_widx (r : BusResponse) (s : State) : (respond r s).widx = s.widx := rfl
@[simp] theorem respond_n (r : BusResponse) (s : State) : (respond r s).n = s.n := rfl
@[simp] theorem respond_pivot (r : BusResponse) (s : State) : (respond r s).pivot = s.pivot := rfl
@[simp] theorem respond_flip (r : BusResponse) (s : State) : (respond r s).flip = s.flip := rfl
@[simp] theorem respond_pos (r : BusResponse) (s : State) : (respond r s).pos = s.pos := rfl
@[simp] theorem respond_busResp (r : BusResponse) (s : State) :
    (respond r s).busResp = some r := rfl
@[simp] theorem respond_dqAnswer (r : BusResponse) (s : State) :
    (respond r s).dqAnswer = s.dqAnswer := rfl
@[simp] theorem respond_events (r : BusResponse) (s : State) :
    (respond r s).events = s.events := rfl
@[simp] theorem respond_schedule (r : BusResponse) (s : State) :
    (respond r s).schedule = s.schedule := rfl
@[simp] theorem respond_resets (r : BusResponse) (s : State) :
    (respond r s).resets = s.resets := rfl

/-! Machine/Ops.lean: the OKAY response of a write. -/

@[simp] theorem okWrite_basePage (s : State) : (okWrite s).basePage = s.basePage := rfl
@[simp] theorem okWrite_seedCap (s : State) : (okWrite s).seedCap = s.seedCap := rfl
@[simp] theorem okWrite_status (s : State) : (okWrite s).status = s.status := rfl
@[simp] theorem okWrite_indexLo (s : State) : (okWrite s).indexLo = s.indexLo := rfl
@[simp] theorem okWrite_indexHi (s : State) : (okWrite s).indexHi = s.indexHi := rfl
@[simp] theorem okWrite_listSizeLo (s : State) : (okWrite s).listSizeLo = s.listSizeLo := rfl
@[simp] theorem okWrite_listSizeHi (s : State) : (okWrite s).listSizeHi = s.listSizeHi := rfl
@[simp] theorem okWrite_seedLen (s : State) : (okWrite s).seedLen = s.seedLen := rfl
@[simp] theorem okWrite_resultLo (s : State) : (okWrite s).resultLo = s.resultLo := rfl
@[simp] theorem okWrite_resultHi (s : State) : (okWrite s).resultHi = s.resultHi := rfl
@[simp] theorem okWrite_irqEn (s : State) : (okWrite s).irqEn = s.irqEn := rfl
@[simp] theorem okWrite_irqPend (s : State) : (okWrite s).irqPend = s.irqPend := rfl
@[simp] theorem okWrite_busErr (s : State) : (okWrite s).busErr = s.busErr := rfl
@[simp] theorem okWrite_digest (s : State) : (okWrite s).digest = s.digest := rfl
@[simp] theorem okWrite_seed (s : State) : (okWrite s).seed = s.seed := rfl
@[simp] theorem okWrite_phase (s : State) : (okWrite s).phase = s.phase := rfl
@[simp] theorem okWrite_round (s : State) : (okWrite s).round = s.round := rfl
@[simp] theorem okWrite_widx (s : State) : (okWrite s).widx = s.widx := rfl
@[simp] theorem okWrite_n (s : State) : (okWrite s).n = s.n := rfl
@[simp] theorem okWrite_pivot (s : State) : (okWrite s).pivot = s.pivot := rfl
@[simp] theorem okWrite_flip (s : State) : (okWrite s).flip = s.flip := rfl
@[simp] theorem okWrite_pos (s : State) : (okWrite s).pos = s.pos := rfl
@[simp] theorem okWrite_busResp (s : State) : (okWrite s).busResp = some (.write .okay) := rfl
@[simp] theorem okWrite_dqAnswer (s : State) : (okWrite s).dqAnswer = s.dqAnswer := rfl
@[simp] theorem okWrite_events (s : State) : (okWrite s).events = s.events := rfl
@[simp] theorem okWrite_schedule (s : State) : (okWrite s).schedule = s.schedule := rfl
@[simp] theorem okWrite_resets (s : State) : (okWrite s).resets = s.resets := rfl

/-! Machine/Ops.lean: a bus error changes `BUSERR` and the response only (R240). -/

@[simp] theorem raiseBusError_basePage (c : BusCause) (o : Offset) (w : Bool) (s : State) :
    (raiseBusError c o w s).basePage = s.basePage := rfl
@[simp] theorem raiseBusError_seedCap (c : BusCause) (o : Offset) (w : Bool) (s : State) :
    (raiseBusError c o w s).seedCap = s.seedCap := rfl
@[simp] theorem raiseBusError_status (c : BusCause) (o : Offset) (w : Bool) (s : State) :
    (raiseBusError c o w s).status = s.status := rfl
@[simp] theorem raiseBusError_indexLo (c : BusCause) (o : Offset) (w : Bool) (s : State) :
    (raiseBusError c o w s).indexLo = s.indexLo := rfl
@[simp] theorem raiseBusError_indexHi (c : BusCause) (o : Offset) (w : Bool) (s : State) :
    (raiseBusError c o w s).indexHi = s.indexHi := rfl
@[simp] theorem raiseBusError_listSizeLo (c : BusCause) (o : Offset) (w : Bool) (s : State) :
    (raiseBusError c o w s).listSizeLo = s.listSizeLo := rfl
@[simp] theorem raiseBusError_listSizeHi (c : BusCause) (o : Offset) (w : Bool) (s : State) :
    (raiseBusError c o w s).listSizeHi = s.listSizeHi := rfl
@[simp] theorem raiseBusError_seedLen (c : BusCause) (o : Offset) (w : Bool) (s : State) :
    (raiseBusError c o w s).seedLen = s.seedLen := rfl
@[simp] theorem raiseBusError_resultLo (c : BusCause) (o : Offset) (w : Bool) (s : State) :
    (raiseBusError c o w s).resultLo = s.resultLo := rfl
@[simp] theorem raiseBusError_resultHi (c : BusCause) (o : Offset) (w : Bool) (s : State) :
    (raiseBusError c o w s).resultHi = s.resultHi := rfl
@[simp] theorem raiseBusError_irqEn (c : BusCause) (o : Offset) (w : Bool) (s : State) :
    (raiseBusError c o w s).irqEn = s.irqEn := rfl
@[simp] theorem raiseBusError_irqPend (c : BusCause) (o : Offset) (w : Bool) (s : State) :
    (raiseBusError c o w s).irqPend = s.irqPend := rfl
@[simp] theorem raiseBusError_busErr (c : BusCause) (o : Offset) (w : Bool) (s : State) :
    (raiseBusError c o w s).busErr = busErrOf c o w := rfl
@[simp] theorem raiseBusError_digest (c : BusCause) (o : Offset) (w : Bool) (s : State) :
    (raiseBusError c o w s).digest = s.digest := rfl
@[simp] theorem raiseBusError_seed (c : BusCause) (o : Offset) (w : Bool) (s : State) :
    (raiseBusError c o w s).seed = s.seed := rfl
@[simp] theorem raiseBusError_phase (c : BusCause) (o : Offset) (w : Bool) (s : State) :
    (raiseBusError c o w s).phase = s.phase := rfl
@[simp] theorem raiseBusError_round (c : BusCause) (o : Offset) (w : Bool) (s : State) :
    (raiseBusError c o w s).round = s.round := rfl
@[simp] theorem raiseBusError_widx (c : BusCause) (o : Offset) (w : Bool) (s : State) :
    (raiseBusError c o w s).widx = s.widx := rfl
@[simp] theorem raiseBusError_n (c : BusCause) (o : Offset) (w : Bool) (s : State) :
    (raiseBusError c o w s).n = s.n := rfl
@[simp] theorem raiseBusError_pivot (c : BusCause) (o : Offset) (w : Bool) (s : State) :
    (raiseBusError c o w s).pivot = s.pivot := rfl
@[simp] theorem raiseBusError_flip (c : BusCause) (o : Offset) (w : Bool) (s : State) :
    (raiseBusError c o w s).flip = s.flip := rfl
@[simp] theorem raiseBusError_pos (c : BusCause) (o : Offset) (w : Bool) (s : State) :
    (raiseBusError c o w s).pos = s.pos := rfl
@[simp] theorem raiseBusError_busResp (c : BusCause) (o : Offset) (w : Bool) (s : State) :
    (raiseBusError c o w s).busResp = some (errorResponse w) := rfl
@[simp] theorem raiseBusError_dqAnswer (c : BusCause) (o : Offset) (w : Bool) (s : State) :
    (raiseBusError c o w s).dqAnswer = s.dqAnswer := rfl
@[simp] theorem raiseBusError_events (c : BusCause) (o : Offset) (w : Bool) (s : State) :
    (raiseBusError c o w s).events = s.events := rfl
@[simp] theorem raiseBusError_schedule (c : BusCause) (o : Offset) (w : Bool) (s : State) :
    (raiseBusError c o w s).schedule = s.schedule := rfl
@[simp] theorem raiseBusError_resets (c : BusCause) (o : Offset) (w : Bool) (s : State) :
    (raiseBusError c o w s).resets = s.resets := rfl

/-! Machine/Ops.lean: a precondition failure (R245). -/

@[simp] theorem failOpError_basePage (e : OpError) (s : State) :
    (failOpError e s).basePage = s.basePage := rfl
@[simp] theorem failOpError_seedCap (e : OpError) (s : State) :
    (failOpError e s).seedCap = s.seedCap := rfl
@[simp] theorem failOpError_status (e : OpError) (s : State) :
    (failOpError e s).status = failedStatus e := rfl
@[simp] theorem failOpError_indexLo (e : OpError) (s : State) :
    (failOpError e s).indexLo = s.indexLo := rfl
@[simp] theorem failOpError_indexHi (e : OpError) (s : State) :
    (failOpError e s).indexHi = s.indexHi := rfl
@[simp] theorem failOpError_listSizeLo (e : OpError) (s : State) :
    (failOpError e s).listSizeLo = s.listSizeLo := rfl
@[simp] theorem failOpError_listSizeHi (e : OpError) (s : State) :
    (failOpError e s).listSizeHi = s.listSizeHi := rfl
@[simp] theorem failOpError_seedLen (e : OpError) (s : State) :
    (failOpError e s).seedLen = s.seedLen := rfl
@[simp] theorem failOpError_resultLo (e : OpError) (s : State) :
    (failOpError e s).resultLo = s.resultLo := rfl
@[simp] theorem failOpError_resultHi (e : OpError) (s : State) :
    (failOpError e s).resultHi = s.resultHi := rfl
@[simp] theorem failOpError_irqEn (e : OpError) (s : State) :
    (failOpError e s).irqEn = s.irqEn := rfl
@[simp] theorem failOpError_irqPend (e : OpError) (s : State) :
    (failOpError e s).irqPend = true := rfl
@[simp] theorem failOpError_busErr (e : OpError) (s : State) :
    (failOpError e s).busErr = s.busErr := rfl
@[simp] theorem failOpError_digest (e : OpError) (s : State) :
    (failOpError e s).digest = s.digest := rfl
@[simp] theorem failOpError_seed (e : OpError) (s : State) : (failOpError e s).seed = s.seed := rfl
@[simp] theorem failOpError_phase (e : OpError) (s : State) :
    (failOpError e s).phase = s.phase := rfl
@[simp] theorem failOpError_round (e : OpError) (s : State) :
    (failOpError e s).round = s.round := rfl
@[simp] theorem failOpError_widx (e : OpError) (s : State) : (failOpError e s).widx = s.widx := rfl
@[simp] theorem failOpError_n (e : OpError) (s : State) : (failOpError e s).n = s.n := rfl
@[simp] theorem failOpError_pivot (e : OpError) (s : State) :
    (failOpError e s).pivot = s.pivot := rfl
@[simp] theorem failOpError_flip (e : OpError) (s : State) : (failOpError e s).flip = s.flip := rfl
@[simp] theorem failOpError_pos (e : OpError) (s : State) : (failOpError e s).pos = s.pos := rfl
@[simp] theorem failOpError_busResp (e : OpError) (s : State) :
    (failOpError e s).busResp = some (.write .okay) := rfl
@[simp] theorem failOpError_dqAnswer (e : OpError) (s : State) :
    (failOpError e s).dqAnswer = s.dqAnswer := rfl
@[simp] theorem failOpError_events (e : OpError) (s : State) :
    (failOpError e s).events = s.events := rfl
@[simp] theorem failOpError_schedule (e : OpError) (s : State) :
    (failOpError e s).schedule = s.schedule := rfl
@[simp] theorem failOpError_resets (e : OpError) (s : State) :
    (failOpError e s).resets = s.resets := rfl

/-! Machine/Ops.lean: a seed write changes the seed buffer only (R205). -/

@[simp] theorem writeSeedWord_basePage (j : BitVec 8) (d : Word) (s : State) :
    (writeSeedWord j d s).basePage = s.basePage := rfl
@[simp] theorem writeSeedWord_seedCap (j : BitVec 8) (d : Word) (s : State) :
    (writeSeedWord j d s).seedCap = s.seedCap := rfl
@[simp] theorem writeSeedWord_status (j : BitVec 8) (d : Word) (s : State) :
    (writeSeedWord j d s).status = s.status := rfl
@[simp] theorem writeSeedWord_indexLo (j : BitVec 8) (d : Word) (s : State) :
    (writeSeedWord j d s).indexLo = s.indexLo := rfl
@[simp] theorem writeSeedWord_indexHi (j : BitVec 8) (d : Word) (s : State) :
    (writeSeedWord j d s).indexHi = s.indexHi := rfl
@[simp] theorem writeSeedWord_listSizeLo (j : BitVec 8) (d : Word) (s : State) :
    (writeSeedWord j d s).listSizeLo = s.listSizeLo := rfl
@[simp] theorem writeSeedWord_listSizeHi (j : BitVec 8) (d : Word) (s : State) :
    (writeSeedWord j d s).listSizeHi = s.listSizeHi := rfl
@[simp] theorem writeSeedWord_seedLen (j : BitVec 8) (d : Word) (s : State) :
    (writeSeedWord j d s).seedLen = s.seedLen := rfl
@[simp] theorem writeSeedWord_resultLo (j : BitVec 8) (d : Word) (s : State) :
    (writeSeedWord j d s).resultLo = s.resultLo := rfl
@[simp] theorem writeSeedWord_resultHi (j : BitVec 8) (d : Word) (s : State) :
    (writeSeedWord j d s).resultHi = s.resultHi := rfl
@[simp] theorem writeSeedWord_irqEn (j : BitVec 8) (d : Word) (s : State) :
    (writeSeedWord j d s).irqEn = s.irqEn := rfl
@[simp] theorem writeSeedWord_irqPend (j : BitVec 8) (d : Word) (s : State) :
    (writeSeedWord j d s).irqPend = s.irqPend := rfl
@[simp] theorem writeSeedWord_busErr (j : BitVec 8) (d : Word) (s : State) :
    (writeSeedWord j d s).busErr = s.busErr := rfl
@[simp] theorem writeSeedWord_digest (j : BitVec 8) (d : Word) (s : State) :
    (writeSeedWord j d s).digest = s.digest := rfl
@[simp] theorem writeSeedWord_phase (j : BitVec 8) (d : Word) (s : State) :
    (writeSeedWord j d s).phase = s.phase := rfl
@[simp] theorem writeSeedWord_round (j : BitVec 8) (d : Word) (s : State) :
    (writeSeedWord j d s).round = s.round := rfl
@[simp] theorem writeSeedWord_widx (j : BitVec 8) (d : Word) (s : State) :
    (writeSeedWord j d s).widx = s.widx := rfl
@[simp] theorem writeSeedWord_n (j : BitVec 8) (d : Word) (s : State) :
    (writeSeedWord j d s).n = s.n := rfl
@[simp] theorem writeSeedWord_pivot (j : BitVec 8) (d : Word) (s : State) :
    (writeSeedWord j d s).pivot = s.pivot := rfl
@[simp] theorem writeSeedWord_flip (j : BitVec 8) (d : Word) (s : State) :
    (writeSeedWord j d s).flip = s.flip := rfl
@[simp] theorem writeSeedWord_pos (j : BitVec 8) (d : Word) (s : State) :
    (writeSeedWord j d s).pos = s.pos := rfl
@[simp] theorem writeSeedWord_busResp (j : BitVec 8) (d : Word) (s : State) :
    (writeSeedWord j d s).busResp = s.busResp := rfl
@[simp] theorem writeSeedWord_dqAnswer (j : BitVec 8) (d : Word) (s : State) :
    (writeSeedWord j d s).dqAnswer = s.dqAnswer := rfl
@[simp] theorem writeSeedWord_events (j : BitVec 8) (d : Word) (s : State) :
    (writeSeedWord j d s).events = s.events := rfl
@[simp] theorem writeSeedWord_schedule (j : BitVec 8) (d : Word) (s : State) :
    (writeSeedWord j d s).schedule = s.schedule := rfl
@[simp] theorem writeSeedWord_resets (j : BitVec 8) (d : Word) (s : State) :
    (writeSeedWord j d s).resets = s.resets := rfl

/-! Machine/Hash.lean: an answered query changes the port's answer only (R135). -/

@[simp] theorem answer_basePage (m : List Byte) (s : State) :
    (answer m s).basePage = s.basePage := rfl
@[simp] theorem answer_seedCap (m : List Byte) (s : State) : (answer m s).seedCap = s.seedCap := rfl
@[simp] theorem answer_status (m : List Byte) (s : State) : (answer m s).status = s.status := rfl
@[simp] theorem answer_indexLo (m : List Byte) (s : State) : (answer m s).indexLo = s.indexLo := rfl
@[simp] theorem answer_indexHi (m : List Byte) (s : State) : (answer m s).indexHi = s.indexHi := rfl
@[simp] theorem answer_listSizeLo (m : List Byte) (s : State) :
    (answer m s).listSizeLo = s.listSizeLo := rfl
@[simp] theorem answer_listSizeHi (m : List Byte) (s : State) :
    (answer m s).listSizeHi = s.listSizeHi := rfl
@[simp] theorem answer_seedLen (m : List Byte) (s : State) : (answer m s).seedLen = s.seedLen := rfl
@[simp] theorem answer_resultLo (m : List Byte) (s : State) :
    (answer m s).resultLo = s.resultLo := rfl
@[simp] theorem answer_resultHi (m : List Byte) (s : State) :
    (answer m s).resultHi = s.resultHi := rfl
@[simp] theorem answer_irqEn (m : List Byte) (s : State) : (answer m s).irqEn = s.irqEn := rfl
@[simp] theorem answer_irqPend (m : List Byte) (s : State) : (answer m s).irqPend = s.irqPend := rfl
@[simp] theorem answer_busErr (m : List Byte) (s : State) : (answer m s).busErr = s.busErr := rfl
@[simp] theorem answer_digest (m : List Byte) (s : State) : (answer m s).digest = s.digest := rfl
@[simp] theorem answer_seed (m : List Byte) (s : State) : (answer m s).seed = s.seed := rfl
@[simp] theorem answer_phase (m : List Byte) (s : State) : (answer m s).phase = s.phase := rfl
@[simp] theorem answer_round (m : List Byte) (s : State) : (answer m s).round = s.round := rfl
@[simp] theorem answer_widx (m : List Byte) (s : State) : (answer m s).widx = s.widx := rfl
@[simp] theorem answer_n (m : List Byte) (s : State) : (answer m s).n = s.n := rfl
@[simp] theorem answer_pivot (m : List Byte) (s : State) : (answer m s).pivot = s.pivot := rfl
@[simp] theorem answer_flip (m : List Byte) (s : State) : (answer m s).flip = s.flip := rfl
@[simp] theorem answer_pos (m : List Byte) (s : State) : (answer m s).pos = s.pos := rfl
@[simp] theorem answer_busResp (m : List Byte) (s : State) : (answer m s).busResp = s.busResp := rfl
@[simp] theorem answer_dqAnswer (m : List Byte) (s : State) :
    (answer m s).dqAnswer = sha256 m := rfl
@[simp] theorem answer_events (m : List Byte) (s : State) : (answer m s).events = s.events := rfl
@[simp] theorem answer_schedule (m : List Byte) (s : State) :
    (answer m s).schedule = s.schedule := rfl
@[simp] theorem answer_resets (m : List Byte) (s : State) : (answer m s).resets = s.resets := rfl

/-! Machine/Hash.lean: HASH completion (R141). -/

@[simp] theorem completeHash_basePage (s : State) : (completeHash s).basePage = s.basePage := rfl
@[simp] theorem completeHash_seedCap (s : State) : (completeHash s).seedCap = s.seedCap := rfl
@[simp] theorem completeHash_status (s : State) :
    (completeHash s).status = completedStatus s.status := rfl
@[simp] theorem completeHash_indexLo (s : State) : (completeHash s).indexLo = s.indexLo := rfl
@[simp] theorem completeHash_indexHi (s : State) : (completeHash s).indexHi = s.indexHi := rfl
@[simp] theorem completeHash_listSizeLo (s : State) :
    (completeHash s).listSizeLo = s.listSizeLo := rfl
@[simp] theorem completeHash_listSizeHi (s : State) :
    (completeHash s).listSizeHi = s.listSizeHi := rfl
@[simp] theorem completeHash_seedLen (s : State) : (completeHash s).seedLen = s.seedLen := rfl
@[simp] theorem completeHash_resultLo (s : State) : (completeHash s).resultLo = s.resultLo := rfl
@[simp] theorem completeHash_resultHi (s : State) : (completeHash s).resultHi = s.resultHi := rfl
@[simp] theorem completeHash_irqEn (s : State) : (completeHash s).irqEn = s.irqEn := rfl
@[simp] theorem completeHash_irqPend (s : State) : (completeHash s).irqPend = true := rfl
@[simp] theorem completeHash_busErr (s : State) : (completeHash s).busErr = s.busErr := rfl
@[simp] theorem completeHash_digest (s : State) :
    (completeHash s).digest = digestWords s.dqAnswer := rfl
@[simp] theorem completeHash_seed (s : State) : (completeHash s).seed = s.seed := rfl
@[simp] theorem completeHash_phase (s : State) : (completeHash s).phase = .idle := rfl
@[simp] theorem completeHash_round (s : State) : (completeHash s).round = s.round := rfl
@[simp] theorem completeHash_widx (s : State) : (completeHash s).widx = s.widx := rfl
@[simp] theorem completeHash_n (s : State) : (completeHash s).n = s.n := rfl
@[simp] theorem completeHash_pivot (s : State) : (completeHash s).pivot = s.pivot := rfl
@[simp] theorem completeHash_flip (s : State) : (completeHash s).flip = s.flip := rfl
@[simp] theorem completeHash_pos (s : State) : (completeHash s).pos = s.pos := rfl
@[simp] theorem completeHash_busResp (s : State) : (completeHash s).busResp = s.busResp := rfl
@[simp] theorem completeHash_dqAnswer (s : State) : (completeHash s).dqAnswer = s.dqAnswer := rfl
@[simp] theorem completeHash_events (s : State) : (completeHash s).events = s.events := rfl
@[simp] theorem completeHash_schedule (s : State) : (completeHash s).schedule = s.schedule := rfl
@[simp] theorem completeHash_resets (s : State) : (completeHash s).resets = s.resets := rfl

/-! Machine/Permute.lean: the acceptance of a PERMUTE (R163). -/

@[simp] theorem startPermute_basePage (s : State) : (startPermute s).basePage = s.basePage := rfl
@[simp] theorem startPermute_seedCap (s : State) : (startPermute s).seedCap = s.seedCap := rfl
@[simp] theorem startPermute_status (s : State) :
    (startPermute s).status = acceptedStatus opPermute true := rfl
@[simp] theorem startPermute_indexLo (s : State) : (startPermute s).indexLo = s.indexLo := rfl
@[simp] theorem startPermute_indexHi (s : State) : (startPermute s).indexHi = s.indexHi := rfl
@[simp] theorem startPermute_listSizeLo (s : State) :
    (startPermute s).listSizeLo = s.listSizeLo := rfl
@[simp] theorem startPermute_listSizeHi (s : State) :
    (startPermute s).listSizeHi = s.listSizeHi := rfl
@[simp] theorem startPermute_seedLen (s : State) : (startPermute s).seedLen = s.seedLen := rfl
@[simp] theorem startPermute_resultLo (s : State) : (startPermute s).resultLo = s.resultLo := rfl
@[simp] theorem startPermute_resultHi (s : State) : (startPermute s).resultHi = s.resultHi := rfl
@[simp] theorem startPermute_irqEn (s : State) : (startPermute s).irqEn = s.irqEn := rfl
@[simp] theorem startPermute_irqPend (s : State) : (startPermute s).irqPend = s.irqPend := rfl
@[simp] theorem startPermute_busErr (s : State) : (startPermute s).busErr = s.busErr := rfl
@[simp] theorem startPermute_digest (s : State) : (startPermute s).digest = s.digest := rfl
@[simp] theorem startPermute_seed (s : State) : (startPermute s).seed = s.seed := rfl
@[simp] theorem startPermute_phase (s : State) : (startPermute s).phase = .pivot := rfl
@[simp] theorem startPermute_round (s : State) : (startPermute s).round = 0#7 := rfl
@[simp] theorem startPermute_widx (s : State) : (startPermute s).widx = s.index.setWidth 40 := rfl
@[simp] theorem startPermute_n (s : State) : (startPermute s).n = s.listSize.setWidth 41 := rfl
@[simp] theorem startPermute_pivot (s : State) : (startPermute s).pivot = s.pivot := rfl
@[simp] theorem startPermute_flip (s : State) : (startPermute s).flip = s.flip := rfl
@[simp] theorem startPermute_pos (s : State) : (startPermute s).pos = s.pos := rfl
@[simp] theorem startPermute_busResp (s : State) : (startPermute s).busResp = s.busResp := rfl
@[simp] theorem startPermute_dqAnswer (s : State) : (startPermute s).dqAnswer = s.dqAnswer := rfl
@[simp] theorem startPermute_events (s : State) : (startPermute s).events = s.events := rfl
@[simp] theorem startPermute_schedule (s : State) : (startPermute s).schedule = s.schedule := rfl
@[simp] theorem startPermute_resets (s : State) : (startPermute s).resets = s.resets := rfl

/-! Machine/Permute.lean: steps 1 to 3 (R170). -/

@[simp] theorem applyPivot_basePage (s : State) : (applyPivot s).basePage = s.basePage := rfl
@[simp] theorem applyPivot_seedCap (s : State) : (applyPivot s).seedCap = s.seedCap := rfl
@[simp] theorem applyPivot_status (s : State) : (applyPivot s).status = s.status := rfl
@[simp] theorem applyPivot_indexLo (s : State) : (applyPivot s).indexLo = s.indexLo := rfl
@[simp] theorem applyPivot_indexHi (s : State) : (applyPivot s).indexHi = s.indexHi := rfl
@[simp] theorem applyPivot_listSizeLo (s : State) : (applyPivot s).listSizeLo = s.listSizeLo := rfl
@[simp] theorem applyPivot_listSizeHi (s : State) : (applyPivot s).listSizeHi = s.listSizeHi := rfl
@[simp] theorem applyPivot_seedLen (s : State) : (applyPivot s).seedLen = s.seedLen := rfl
@[simp] theorem applyPivot_resultLo (s : State) : (applyPivot s).resultLo = s.resultLo := rfl
@[simp] theorem applyPivot_resultHi (s : State) : (applyPivot s).resultHi = s.resultHi := rfl
@[simp] theorem applyPivot_irqEn (s : State) : (applyPivot s).irqEn = s.irqEn := rfl
@[simp] theorem applyPivot_irqPend (s : State) : (applyPivot s).irqPend = s.irqPend := rfl
@[simp] theorem applyPivot_busErr (s : State) : (applyPivot s).busErr = s.busErr := rfl
@[simp] theorem applyPivot_digest (s : State) : (applyPivot s).digest = s.digest := rfl
@[simp] theorem applyPivot_seed (s : State) : (applyPivot s).seed = s.seed := rfl
@[simp] theorem applyPivot_phase (s : State) : (applyPivot s).phase = .source := rfl
@[simp] theorem applyPivot_round (s : State) : (applyPivot s).round = s.round := rfl
@[simp] theorem applyPivot_widx (s : State) : (applyPivot s).widx = s.widx := rfl
@[simp] theorem applyPivot_n (s : State) : (applyPivot s).n = s.n := rfl
@[simp] theorem applyPivot_pivot (s : State) : (applyPivot s).pivot = pivotOf s.dqAnswer s.n := rfl
@[simp] theorem applyPivot_flip (s : State) :
    (applyPivot s).flip = flipOf (pivotOf s.dqAnswer s.n) s.widx s.n := rfl
@[simp] theorem applyPivot_pos (s : State) :
    (applyPivot s).pos = posOf s.widx (flipOf (pivotOf s.dqAnswer s.n) s.widx s.n) := rfl
@[simp] theorem applyPivot_busResp (s : State) : (applyPivot s).busResp = s.busResp := rfl
@[simp] theorem applyPivot_dqAnswer (s : State) : (applyPivot s).dqAnswer = s.dqAnswer := rfl
@[simp] theorem applyPivot_events (s : State) : (applyPivot s).events = s.events := rfl
@[simp] theorem applyPivot_schedule (s : State) : (applyPivot s).schedule = s.schedule := rfl
@[simp] theorem applyPivot_resets (s : State) : (applyPivot s).resets = s.resets := rfl

/-! Machine/Permute.lean: steps 5 to 7 and the count of rounds (R171). -/

@[simp] theorem advanceRound_basePage (s : State) : (advanceRound s).basePage = s.basePage := rfl
@[simp] theorem advanceRound_seedCap (s : State) : (advanceRound s).seedCap = s.seedCap := rfl
@[simp] theorem advanceRound_status (s : State) :
    (advanceRound s).status = { s.status with round := s.round + 1#7 } := rfl
@[simp] theorem advanceRound_indexLo (s : State) : (advanceRound s).indexLo = s.indexLo := rfl
@[simp] theorem advanceRound_indexHi (s : State) : (advanceRound s).indexHi = s.indexHi := rfl
@[simp] theorem advanceRound_listSizeLo (s : State) :
    (advanceRound s).listSizeLo = s.listSizeLo := rfl
@[simp] theorem advanceRound_listSizeHi (s : State) :
    (advanceRound s).listSizeHi = s.listSizeHi := rfl
@[simp] theorem advanceRound_seedLen (s : State) : (advanceRound s).seedLen = s.seedLen := rfl
@[simp] theorem advanceRound_resultLo (s : State) : (advanceRound s).resultLo = s.resultLo := rfl
@[simp] theorem advanceRound_resultHi (s : State) : (advanceRound s).resultHi = s.resultHi := rfl
@[simp] theorem advanceRound_irqEn (s : State) : (advanceRound s).irqEn = s.irqEn := rfl
@[simp] theorem advanceRound_irqPend (s : State) : (advanceRound s).irqPend = s.irqPend := rfl
@[simp] theorem advanceRound_busErr (s : State) : (advanceRound s).busErr = s.busErr := rfl
@[simp] theorem advanceRound_digest (s : State) : (advanceRound s).digest = s.digest := rfl
@[simp] theorem advanceRound_seed (s : State) : (advanceRound s).seed = s.seed := rfl
@[simp] theorem advanceRound_phase (s : State) : (advanceRound s).phase = s.phase := rfl
@[simp] theorem advanceRound_round (s : State) : (advanceRound s).round = s.round + 1#7 := rfl
@[simp] theorem advanceRound_widx (s : State) :
    (advanceRound s).widx = swapOf (selectedBit s.dqAnswer s.pos) s.widx s.flip := rfl
@[simp] theorem advanceRound_n (s : State) : (advanceRound s).n = s.n := rfl
@[simp] theorem advanceRound_pivot (s : State) : (advanceRound s).pivot = s.pivot := rfl
@[simp] theorem advanceRound_flip (s : State) : (advanceRound s).flip = s.flip := rfl
@[simp] theorem advanceRound_pos (s : State) : (advanceRound s).pos = s.pos := rfl
@[simp] theorem advanceRound_busResp (s : State) : (advanceRound s).busResp = s.busResp := rfl
@[simp] theorem advanceRound_dqAnswer (s : State) : (advanceRound s).dqAnswer = s.dqAnswer := rfl
@[simp] theorem advanceRound_events (s : State) : (advanceRound s).events = s.events := rfl
@[simp] theorem advanceRound_schedule (s : State) : (advanceRound s).schedule = s.schedule := rfl
@[simp] theorem advanceRound_resets (s : State) : (advanceRound s).resets = s.resets := rfl

/-! Machine/Permute.lean: PERMUTE completion (R175). -/

@[simp] theorem completePermute_basePage (s : State) :
    (completePermute s).basePage = s.basePage := rfl
@[simp] theorem completePermute_seedCap (s : State) : (completePermute s).seedCap = s.seedCap := rfl
@[simp] theorem completePermute_status (s : State) :
    (completePermute s).status = completedStatus s.status := rfl
@[simp] theorem completePermute_indexLo (s : State) : (completePermute s).indexLo = s.indexLo := rfl
@[simp] theorem completePermute_indexHi (s : State) : (completePermute s).indexHi = s.indexHi := rfl
@[simp] theorem completePermute_listSizeLo (s : State) :
    (completePermute s).listSizeLo = s.listSizeLo := rfl
@[simp] theorem completePermute_listSizeHi (s : State) :
    (completePermute s).listSizeHi = s.listSizeHi := rfl
@[simp] theorem completePermute_seedLen (s : State) : (completePermute s).seedLen = s.seedLen := rfl
@[simp] theorem completePermute_resultLo (s : State) :
    (completePermute s).resultLo = s.widx.extractLsb' 0 32 := rfl
@[simp] theorem completePermute_resultHi (s : State) :
    (completePermute s).resultHi = (s.widx.extractLsb' 32 8).setWidth 32 := rfl
@[simp] theorem completePermute_irqEn (s : State) : (completePermute s).irqEn = s.irqEn := rfl
@[simp] theorem completePermute_irqPend (s : State) : (completePermute s).irqPend = true := rfl
@[simp] theorem completePermute_busErr (s : State) : (completePermute s).busErr = s.busErr := rfl
@[simp] theorem completePermute_digest (s : State) : (completePermute s).digest = s.digest := rfl
@[simp] theorem completePermute_seed (s : State) : (completePermute s).seed = s.seed := rfl
@[simp] theorem completePermute_phase (s : State) : (completePermute s).phase = .idle := rfl
@[simp] theorem completePermute_round (s : State) : (completePermute s).round = s.round := rfl
@[simp] theorem completePermute_widx (s : State) : (completePermute s).widx = s.widx := rfl
@[simp] theorem completePermute_n (s : State) : (completePermute s).n = s.n := rfl
@[simp] theorem completePermute_pivot (s : State) : (completePermute s).pivot = s.pivot := rfl
@[simp] theorem completePermute_flip (s : State) : (completePermute s).flip = s.flip := rfl
@[simp] theorem completePermute_pos (s : State) : (completePermute s).pos = s.pos := rfl
@[simp] theorem completePermute_busResp (s : State) : (completePermute s).busResp = s.busResp := rfl
@[simp] theorem completePermute_dqAnswer (s : State) :
    (completePermute s).dqAnswer = s.dqAnswer := rfl
@[simp] theorem completePermute_events (s : State) : (completePermute s).events = s.events := rfl
@[simp] theorem completePermute_schedule (s : State) :
    (completePermute s).schedule = s.schedule := rfl
@[simp] theorem completePermute_resets (s : State) : (completePermute s).resets = s.resets := rfl

/-! Machine/Ops.lean: hardware reset (R281). -/

@[simp] theorem hardwareReset_basePage (s : State) : (hardwareReset s).basePage = s.basePage := rfl
@[simp] theorem hardwareReset_seedCap (s : State) : (hardwareReset s).seedCap = s.seedCap := rfl
@[simp] theorem hardwareReset_status (s : State) : (hardwareReset s).status = Status.zero := rfl
@[simp] theorem hardwareReset_indexLo (s : State) : (hardwareReset s).indexLo = 0#32 := rfl
@[simp] theorem hardwareReset_indexHi (s : State) : (hardwareReset s).indexHi = 0#32 := rfl
@[simp] theorem hardwareReset_listSizeLo (s : State) : (hardwareReset s).listSizeLo = 0#32 := rfl
@[simp] theorem hardwareReset_listSizeHi (s : State) : (hardwareReset s).listSizeHi = 0#32 := rfl
@[simp] theorem hardwareReset_seedLen (s : State) : (hardwareReset s).seedLen = 0#11 := rfl
@[simp] theorem hardwareReset_resultLo (s : State) : (hardwareReset s).resultLo = 0#32 := rfl
@[simp] theorem hardwareReset_resultHi (s : State) : (hardwareReset s).resultHi = 0#32 := rfl
@[simp] theorem hardwareReset_irqEn (s : State) : (hardwareReset s).irqEn = false := rfl
@[simp] theorem hardwareReset_irqPend (s : State) : (hardwareReset s).irqPend = false := rfl
@[simp] theorem hardwareReset_busErr (s : State) : (hardwareReset s).busErr = BusErr.zero := rfl
@[simp] theorem hardwareReset_digest (s : State) :
    (hardwareReset s).digest = Vector.replicate 8 0#32 := rfl
@[simp] theorem hardwareReset_seed (s : State) :
    (hardwareReset s).seed = drawnSeed s.seedCap (s.resets + 1) := rfl
@[simp] theorem hardwareReset_phase (s : State) : (hardwareReset s).phase = .idle := rfl
@[simp] theorem hardwareReset_round (s : State) : (hardwareReset s).round = 0#7 := rfl
@[simp] theorem hardwareReset_widx (s : State) : (hardwareReset s).widx = 0#40 := rfl
@[simp] theorem hardwareReset_n (s : State) : (hardwareReset s).n = 0#41 := rfl
@[simp] theorem hardwareReset_pivot (s : State) : (hardwareReset s).pivot = 0#40 := rfl
@[simp] theorem hardwareReset_flip (s : State) : (hardwareReset s).flip = 0#40 := rfl
@[simp] theorem hardwareReset_pos (s : State) : (hardwareReset s).pos = 0#40 := rfl
@[simp] theorem hardwareReset_busResp (s : State) : (hardwareReset s).busResp = none := rfl
@[simp] theorem hardwareReset_dqAnswer (s : State) : (hardwareReset s).dqAnswer = 0#256 := rfl
@[simp] theorem hardwareReset_events (s : State) : (hardwareReset s).events = s.events := rfl
@[simp] theorem hardwareReset_schedule (s : State) : (hardwareReset s).schedule = s.schedule := rfl
@[simp] theorem hardwareReset_resets (s : State) : (hardwareReset s).resets = s.resets + 1 := rfl

/-! Machine/Ops.lean: SOFT_RESET keeps the seed buffer only (R283). -/

@[simp] theorem clearAllButSeed_basePage (s : State) :
    (clearAllButSeed s).basePage = s.basePage := rfl
@[simp] theorem clearAllButSeed_seedCap (s : State) : (clearAllButSeed s).seedCap = s.seedCap := rfl
@[simp] theorem clearAllButSeed_status (s : State) : (clearAllButSeed s).status = Status.zero := rfl
@[simp] theorem clearAllButSeed_indexLo (s : State) : (clearAllButSeed s).indexLo = 0#32 := rfl
@[simp] theorem clearAllButSeed_indexHi (s : State) : (clearAllButSeed s).indexHi = 0#32 := rfl
@[simp] theorem clearAllButSeed_listSizeLo (s : State) :
    (clearAllButSeed s).listSizeLo = 0#32 := rfl
@[simp] theorem clearAllButSeed_listSizeHi (s : State) :
    (clearAllButSeed s).listSizeHi = 0#32 := rfl
@[simp] theorem clearAllButSeed_seedLen (s : State) : (clearAllButSeed s).seedLen = 0#11 := rfl
@[simp] theorem clearAllButSeed_resultLo (s : State) : (clearAllButSeed s).resultLo = 0#32 := rfl
@[simp] theorem clearAllButSeed_resultHi (s : State) : (clearAllButSeed s).resultHi = 0#32 := rfl
@[simp] theorem clearAllButSeed_irqEn (s : State) : (clearAllButSeed s).irqEn = false := rfl
@[simp] theorem clearAllButSeed_irqPend (s : State) : (clearAllButSeed s).irqPend = false := rfl
@[simp] theorem clearAllButSeed_busErr (s : State) : (clearAllButSeed s).busErr = BusErr.zero := rfl
@[simp] theorem clearAllButSeed_digest (s : State) :
    (clearAllButSeed s).digest = Vector.replicate 8 0#32 := rfl
@[simp] theorem clearAllButSeed_seed (s : State) : (clearAllButSeed s).seed = s.seed := rfl
@[simp] theorem clearAllButSeed_phase (s : State) : (clearAllButSeed s).phase = .idle := rfl
@[simp] theorem clearAllButSeed_round (s : State) : (clearAllButSeed s).round = 0#7 := rfl
@[simp] theorem clearAllButSeed_widx (s : State) : (clearAllButSeed s).widx = 0#40 := rfl
@[simp] theorem clearAllButSeed_n (s : State) : (clearAllButSeed s).n = 0#41 := rfl
@[simp] theorem clearAllButSeed_pivot (s : State) : (clearAllButSeed s).pivot = 0#40 := rfl
@[simp] theorem clearAllButSeed_flip (s : State) : (clearAllButSeed s).flip = 0#40 := rfl
@[simp] theorem clearAllButSeed_pos (s : State) : (clearAllButSeed s).pos = 0#40 := rfl
@[simp] theorem clearAllButSeed_busResp (s : State) : (clearAllButSeed s).busResp = none := rfl
@[simp] theorem clearAllButSeed_dqAnswer (s : State) : (clearAllButSeed s).dqAnswer = 0#256 := rfl
@[simp] theorem clearAllButSeed_events (s : State) : (clearAllButSeed s).events = s.events := rfl
@[simp] theorem clearAllButSeed_schedule (s : State) :
    (clearAllButSeed s).schedule = s.schedule := rfl
@[simp] theorem clearAllButSeed_resets (s : State) : (clearAllButSeed s).resets = s.resets := rfl

/-! The operand forms see only the registers they are assembled from. -/

@[simp] theorem respond_base (r : BusResponse) (s : State) : (respond r s).base = s.base := rfl
@[simp] theorem respond_index (r : BusResponse) (s : State) : (respond r s).index = s.index := rfl
@[simp] theorem respond_listSize (r : BusResponse) (s : State) :
    (respond r s).listSize = s.listSize := rfl
@[simp] theorem respond_result (r : BusResponse) (s : State) :
    (respond r s).result = s.result := rfl
@[simp] theorem respond_seedStr (r : BusResponse) (s : State) :
    (respond r s).seedStr = s.seedStr := rfl
@[simp] theorem okWrite_base (s : State) : (okWrite s).base = s.base := rfl
@[simp] theorem okWrite_index (s : State) : (okWrite s).index = s.index := rfl
@[simp] theorem okWrite_listSize (s : State) : (okWrite s).listSize = s.listSize := rfl
@[simp] theorem okWrite_result (s : State) : (okWrite s).result = s.result := rfl
@[simp] theorem okWrite_seedStr (s : State) : (okWrite s).seedStr = s.seedStr := rfl
@[simp] theorem raiseBusError_base (c : BusCause) (o : Offset) (w : Bool) (s : State) :
    (raiseBusError c o w s).base = s.base := rfl
@[simp] theorem raiseBusError_index (c : BusCause) (o : Offset) (w : Bool) (s : State) :
    (raiseBusError c o w s).index = s.index := rfl
@[simp] theorem raiseBusError_listSize (c : BusCause) (o : Offset) (w : Bool) (s : State) :
    (raiseBusError c o w s).listSize = s.listSize := rfl
@[simp] theorem raiseBusError_result (c : BusCause) (o : Offset) (w : Bool) (s : State) :
    (raiseBusError c o w s).result = s.result := rfl
@[simp] theorem raiseBusError_seedStr (c : BusCause) (o : Offset) (w : Bool) (s : State) :
    (raiseBusError c o w s).seedStr = s.seedStr := rfl
@[simp] theorem failOpError_base (e : OpError) (s : State) : (failOpError e s).base = s.base := rfl
@[simp] theorem failOpError_index (e : OpError) (s : State) :
    (failOpError e s).index = s.index := rfl
@[simp] theorem failOpError_listSize (e : OpError) (s : State) :
    (failOpError e s).listSize = s.listSize := rfl
@[simp] theorem failOpError_result (e : OpError) (s : State) :
    (failOpError e s).result = s.result := rfl
@[simp] theorem failOpError_seedStr (e : OpError) (s : State) :
    (failOpError e s).seedStr = s.seedStr := rfl
@[simp] theorem writeSeedWord_base (j : BitVec 8) (d : Word) (s : State) :
    (writeSeedWord j d s).base = s.base := rfl
@[simp] theorem writeSeedWord_index (j : BitVec 8) (d : Word) (s : State) :
    (writeSeedWord j d s).index = s.index := rfl
@[simp] theorem writeSeedWord_listSize (j : BitVec 8) (d : Word) (s : State) :
    (writeSeedWord j d s).listSize = s.listSize := rfl
@[simp] theorem writeSeedWord_result (j : BitVec 8) (d : Word) (s : State) :
    (writeSeedWord j d s).result = s.result := rfl
@[simp] theorem answer_base (m : List Byte) (s : State) : (answer m s).base = s.base := rfl
@[simp] theorem answer_index (m : List Byte) (s : State) : (answer m s).index = s.index := rfl
@[simp] theorem answer_listSize (m : List Byte) (s : State) :
    (answer m s).listSize = s.listSize := rfl
@[simp] theorem answer_result (m : List Byte) (s : State) : (answer m s).result = s.result := rfl
@[simp] theorem answer_seedStr (m : List Byte) (s : State) : (answer m s).seedStr = s.seedStr := rfl
@[simp] theorem completeHash_base (s : State) : (completeHash s).base = s.base := rfl
@[simp] theorem completeHash_index (s : State) : (completeHash s).index = s.index := rfl
@[simp] theorem completeHash_listSize (s : State) : (completeHash s).listSize = s.listSize := rfl
@[simp] theorem completeHash_result (s : State) : (completeHash s).result = s.result := rfl
@[simp] theorem completeHash_seedStr (s : State) : (completeHash s).seedStr = s.seedStr := rfl
@[simp] theorem startPermute_base (s : State) : (startPermute s).base = s.base := rfl
@[simp] theorem startPermute_index (s : State) : (startPermute s).index = s.index := rfl
@[simp] theorem startPermute_listSize (s : State) : (startPermute s).listSize = s.listSize := rfl
@[simp] theorem startPermute_result (s : State) : (startPermute s).result = s.result := rfl
@[simp] theorem startPermute_seedStr (s : State) : (startPermute s).seedStr = s.seedStr := rfl
@[simp] theorem applyPivot_base (s : State) : (applyPivot s).base = s.base := rfl
@[simp] theorem applyPivot_index (s : State) : (applyPivot s).index = s.index := rfl
@[simp] theorem applyPivot_listSize (s : State) : (applyPivot s).listSize = s.listSize := rfl
@[simp] theorem applyPivot_result (s : State) : (applyPivot s).result = s.result := rfl
@[simp] theorem applyPivot_seedStr (s : State) : (applyPivot s).seedStr = s.seedStr := rfl
@[simp] theorem advanceRound_base (s : State) : (advanceRound s).base = s.base := rfl
@[simp] theorem advanceRound_index (s : State) : (advanceRound s).index = s.index := rfl
@[simp] theorem advanceRound_listSize (s : State) : (advanceRound s).listSize = s.listSize := rfl
@[simp] theorem advanceRound_result (s : State) : (advanceRound s).result = s.result := rfl
@[simp] theorem advanceRound_seedStr (s : State) : (advanceRound s).seedStr = s.seedStr := rfl
@[simp] theorem completePermute_base (s : State) : (completePermute s).base = s.base := rfl
@[simp] theorem completePermute_index (s : State) : (completePermute s).index = s.index := rfl
@[simp] theorem completePermute_listSize (s : State) :
    (completePermute s).listSize = s.listSize := rfl
@[simp] theorem completePermute_seedStr (s : State) : (completePermute s).seedStr = s.seedStr := rfl
@[simp] theorem hardwareReset_base (s : State) : (hardwareReset s).base = s.base := rfl
@[simp] theorem clearAllButSeed_base (s : State) : (clearAllButSeed s).base = s.base := rfl

end Sys2Proof.Machine
end

