-- ==== Sys2Proof/Laws/Ops.lean ====
section
/-! SUPPORT. What each shared operation can do, said once. -/

namespace Sys2Proof.Machine

/-! ### Reporting -/

/-- A bus error is the rejected state of R240. -/
theorem raiseBusError_eq (c : BusCause) (off : Offset) (w : Bool) (s : State) :
    raiseBusError c off w s = rejectedState (causeCode c) off w s := by
  cases w <;> rfl

theorem causeCode_range (c : BusCause) : 1 ≤ (causeCode c).toNat ∧ (causeCode c).toNat ≤ 5 := by
  cases c <;> decide

theorem unlessBusy_busy (off : Offset) (s t : State) (h : s.status.busy = true) :
    unlessBusy off s t = raiseBusError .busy off true s := by simp [unlessBusy, h]

theorem unlessBusy_free (off : Offset) (s t : State) (h : s.status.busy = false) :
    unlessBusy off s t = t := by simp [unlessBusy, h]

/-! ### Legal values -/

/-- A legal `SEED_LEN` value is a number up to `SEED_CAP` in 11 bits (R204). -/
theorem legalSeedLen_iff (cap : Nat) (data : Word) :
    legalSeedLen cap data = true ↔ data.toNat < 2 ^ 11 ∧ data.toNat ≤ cap := by
  have hd := data.isLt
  simp only [legalSeedLen, Bool.and_eq_true, beq_iff_eq, decide_eq_true_eq, ← BitVec.toNat_inj,
    toNat_extract, BitVec.toNat_ofNat]
  omega

/-- A legal value of `IRQ_EN` and `IRQ_STATUS` is 0 or 1 (R211, R212). -/
theorem legalFlag_iff (data : Word) : legalFlag data = true ↔ data.toNat < 2 := by
  have hd := data.isLt
  simp only [legalFlag, beq_iff_eq, ← BitVec.toNat_inj, toNat_extract, BitVec.toNat_ofNat]
  omega

/-! ### The registers as words -/

/-- `PARAMS` as a number (R23). -/
theorem paramsWord_toNat (cap : Nat) (h : cap < 4096) :
    (paramsWord cap).toNat = 90 + 2 ^ 8 * cap + 2 ^ 20 * 40 := by
  have hc : cap % 2 ^ 32 = cap := Nat.mod_eq_of_lt (by omega)
  have h1 : (40 <<< 20 ||| cap <<< 8 : Nat) = (40 <<< 12 ||| cap) <<< 8 := by
    rw [Nat.shiftLeft_or_distrib]
    rfl
  have h2 : (40 <<< 12 ||| cap : Nat) = 40 <<< 12 + cap :=
    (Nat.shiftLeft_add_eq_or_of_lt (by omega) 40).symm
  have h3 : ((40 <<< 12 + cap) <<< 8 ||| 90 : Nat) = (40 <<< 12 + cap) <<< 8 + 90 :=
    (Nat.shiftLeft_add_eq_or_of_lt (by omega) _).symm
  have h4 : (cap <<< 8) % 2 ^ 32 = cap <<< 8 :=
    Nat.mod_eq_of_lt (by rw [Nat.shiftLeft_eq]; omega)
  have h5 : ((40 % 2 ^ 32) <<< 20) % 2 ^ 32 = 40 <<< 20 := by decide
  simp only [paramsWord, Config.log2MaxList, Config.rounds, BitVec.toNat_or,
    BitVec.toNat_shiftLeft, BitVec.toNat_ofNat, hc, h4, h5]
  rw [h1, h2, show 90 % 2 ^ 32 = 90 from rfl, h3, Nat.shiftLeft_eq, Nat.shiftLeft_eq]
  omega

/-! ### The seed buffer -/

theorem writeSeedWord_length (j : BitVec 8) (data : Word) (s : State) :
    (writeSeedWord j data s).seed.length = s.seed.length := by simp [writeSeedWord]

/-- Read after write: the four bytes of the word hold its lanes, every other byte its old value
(R205). -/
theorem readSeed_writeSeedWord (j : BitVec 8) (data : Word) (s : State)
    (h : 4 * j.toNat + 4 ≤ s.seed.length) (a : Nat) :
    readSeed (writeSeedWord j data s) a =
      if 4 * j.toNat ≤ a ∧ a < 4 * j.toNat + 4 then lane data (a - 4 * j.toNat)
      else readSeed s a := by
  by_cases hw : 4 * j.toNat ≤ a ∧ a < 4 * j.toNat + 4
  · rw [if_pos hw]
    have hc : a = 4 * j.toNat ∨ a = 4 * j.toNat + 1 ∨ a = 4 * j.toNat + 2 ∨
        a = 4 * j.toNat + 3 := by omega
    rcases hc with rfl | rfl | rfl | rfl <;>
      simp [readSeed, writeSeedWord, List.getD_eq_getElem?_getD, List.getElem?_set] <;>
      (split <;> first | rfl | omega)
  · rw [if_neg hw]
    simp only [readSeed, writeSeedWord, List.getD_eq_getElem?_getD, List.getElem?_set]
    rw [if_neg (by omega), if_neg (by omega), if_neg (by omega), if_neg (by omega)]

/-- Writing the same word twice is writing it once. -/
theorem writeSeedWord_idem (j : BitVec 8) (data : Word) (s : State) :
    (writeSeedWord j data (writeSeedWord j data s)).seed = (writeSeedWord j data s).seed := by
  apply List.ext_getElem?
  intro a
  simp only [writeSeedWord, List.getElem?_set, List.length_set]
  repeat' split
  all_goals rfl

/-! ### Drawing the seed -/

theorem drawnSeed_length (cap resets : Nat) : (drawnSeed cap resets).length = cap := by
  simp [drawnSeed]

theorem readSeed_drawn (cap resets k : Nat) (h : k < cap) :
    (drawnSeed cap resets).getD k 0#8 = Config.seedDraw resets k := by
  simp [drawnSeed, List.getD_eq_getElem?_getD, h]

/-! ### The preconditions of PERMUTE -/

/-- The checks of R161 and their order. -/
theorem permuteError_cases (s : State) :
    (s.listSize.toNat ≤ s.index.toNat ∧ permuteError s = some .invalidIndex) ∨
    (s.index.toNat < s.listSize.toNat ∧ 2 ^ 40 < s.listSize.toNat ∧
      permuteError s = some .listTooLarge) ∨
    (s.index.toNat < s.listSize.toNat ∧ s.listSize.toNat ≤ 2 ^ 40 ∧ permuteError s = none) := by
  by_cases h1 : s.listSize.toNat ≤ s.index.toNat
  · exact .inl ⟨h1, by simp [permuteError, h1]⟩
  · by_cases h2 : 2 ^ 40 < s.listSize.toNat
    · exact .inr (.inl ⟨by omega, h2, by rw [permuteError, if_neg h1, Config.maxListSize, if_pos h2]⟩)
    · exact .inr (.inr ⟨by omega, by omega, by
        rw [permuteError, if_neg h1, Config.maxListSize, if_neg h2]⟩)

end Sys2Proof.Machine
end

