-- ==== Sys2Proof/Laws/Datapath.lean ====
section
/-! SUPPORT. The datapath of one round as numbers, against the function of spec/41_permute.md
R160. -/

namespace Sys2Proof.Machine

/-! ### Steps 1 to 3 -/

/-- Step 1 is the exact remainder (R164). -/
theorem pivotOf_toNat (d : Digest) (n : BitVec 41) (h0 : 0 < n.toNat) (h : n.toNat ≤ 2 ^ 40) :
    (pivotOf d n).toNat = digestLow64 d % n.toNat := by
  have := Nat.mod_lt (digestLow64 d) h0
  rw [pivotOf, BitVec.toNat_ofNat]
  omega

/-- The non-negative remainder of the difference, by cases (R165). -/
theorem refFlip_eq (n pivot index : Nat) (hp : pivot < n) (hi : index < n) :
    refFlip n pivot index = if index ≤ pivot then pivot - index else pivot + n - index := by
  rw [refFlip]
  split
  · rw [Int.emod_eq_of_lt (by omega) (by omega)]
    omega
  · have h : ((pivot : Int) - index) % n = pivot - index + n := by
      rw [← Int.add_emod_right, Int.emod_eq_of_lt (by omega) (by omega)]
    rw [h]
    omega

theorem refFlip_lt (n pivot index : Nat) (hp : pivot < n) (hi : index < n) :
    refFlip n pivot index < n := by
  rw [refFlip_eq n pivot index hp hi]
  split <;> omega

/-- The partner of the partner is the index (R181). -/
theorem refFlip_refFlip (n pivot index : Nat) (hp : pivot < n) (hi : index < n) :
    refFlip n pivot (refFlip n pivot index) = index := by
  rw [refFlip_eq n pivot _ hp (refFlip_lt n pivot index hp hi), refFlip_eq n pivot index hp hi]
  split <;> split <;> omega

/-- Step 2 in the datapath is that remainder (R165). -/
theorem flipOf_toNat (pivot widx : BitVec 40) (n : BitVec 41) (hn : n.toNat ≤ 2 ^ 40)
    (hp : pivot.toNat < n.toNat) (hw : widx.toNat < n.toNat) :
    (flipOf pivot widx n).toNat = refFlip n.toNat pivot.toNat widx.toNat := by
  rw [refFlip_eq _ _ _ hp hw, flipOf, BitVec.toNat_ofNat]
  split <;> omega

/-- Step 3 is the maximum (R166). -/
theorem posOf_toNat (widx flip : BitVec 40) :
    (posOf widx flip).toNat = max widx.toNat flip.toNat := by
  rw [posOf]
  split <;> omega

theorem refPivot_lt (seed : List Byte) (n r : Nat) (h : 0 < n) : refPivot seed n r < n :=
  Nat.mod_lt _ h

/-! ### Steps 4 to 7 -/

/-- The block index is `pos div 256` (R167). -/
theorem blockIndex_toNat (pos : BitVec 40) : (blockIndex pos).toNat = pos.toNat / 256 := by
  have := pos.isLt
  rw [blockIndex, toNat_extract]
  omega

/-- The byte offset is `(pos mod 256) div 8` (R168). -/
theorem byteOffset_toNat (pos : BitVec 40) :
    (byteOffset pos).toNat = pos.toNat % 256 / 8 := by
  rw [byteOffset, toNat_extract]
  omega

/-- The bit select is `pos mod 8` (R169). -/
theorem bitSelect_toNat (pos : BitVec 40) : (bitSelect pos).toNat = pos.toNat % 8 := by
  rw [bitSelect, toNat_extract]
  omega

/-- Steps 5 and 6 as numbers (R168, R169). -/
theorem selectedBit_toNat (d : Digest) (pos : BitVec 40) :
    (selectedBit d pos).toNat =
      (digestByte d (pos.toNat % 256 / 8)).toNat / 2 ^ (pos.toNat % 8) % 2 := by
  rw [selectedBit, toNat_getLsbD, byteOffset_toNat, bitSelect_toNat]

/-- The bit the datapath selects from the answer of its query is the bit of R160. -/
theorem selectedBit_eq_refBit (seed : List Byte) (r : Nat) (pos : BitVec 40) :
    (selectedBit (sha256 (seed ++ u8 r ++ u32le (pos.toNat / 256))) pos).toNat =
      refBit seed r pos.toNat := by
  rw [selectedBit_toNat, refBit, Nat.shiftRight_eq_div_pow]

theorem rnd_toNat (s : State) : s.rnd.toNat = s.round.toNat := by
  have := s.round.isLt
  rw [State.rnd, BitVec.toNat_setWidth]
  omega

/-- The function's round in terms of its pivot, flip and bit (R160). -/
theorem permuteRound_eq (seed : List Byte) (n r index : Nat) :
    permuteRound seed n r index =
      if refBit seed r (max index (refFlip n (refPivot seed n r) index)) = 1 then
        refFlip n (refPivot seed n r) index
      else index := rfl

theorem permuteRound_lt (seed : List Byte) (n r index : Nat) (h : index < n) :
    permuteRound seed n r index < n := by
  rw [permuteRound_eq]
  split
  · exact refFlip_lt n _ index (refPivot_lt seed n r (by omega)) h
  · exact h

theorem permuteRounds_lt (seed : List Byte) (n k index : Nat) (h : index < n) :
    permuteRounds seed n k index < n := by
  induction k with
  | zero => exact h
  | succ k ih => exact permuteRound_lt seed n k _ ih

end Sys2Proof.Machine
end

