-- ==== Sys2Proof/Laws/PerInstr.lean ====
section
/-! SUPPORT. The family of statements made once per instruction: the frame of every well-formed
instruction of the default engine carries the fixed bits of its row of spec/opcode_table.json
(spec/30_encoding.md R110). -/

namespace Sys2Proof.Laws.TableRow

/-- The fixed bits of a row: the positions (`mask`) and their values (`bits`), in a 48-bit or a 42-bit
frame. -/
inductive Row where
  | td48 (bits mask : BitVec 48)
  | dq42 (bits mask : BitVec 42)
  deriving DecidableEq, Repr

/-- The row of each instruction, as spec/opcode_table.json has it. -/
def row : Instr → Row
  | .rd _ => .td48 0x400000000000#48 0xF00300000000#48
  | .wrIndexLo _ => .td48 0xC01000000000#48 0xFFFF00000000#48
  | .wrIndexHi _ => .td48 0xC01400000000#48 0xFFFF00000000#48
  | .wrListSizeLo _ => .td48 0xC01800000000#48 0xFFFF00000000#48
  | .wrListSizeHi _ => .td48 0xC01C00000000#48 0xFFFF00000000#48
  | .wrSeedLen _ => .td48 0xC02000000000#48 0xFFFF00000000#48
  | .wrIrqEn _ => .td48 0xC02C00000000#48 0xFFFF00000000#48
  | .wrIrqStatus _ => .td48 0xC03000000000#48 0xFFFF00000000#48
  | .wrSeed _ _ => .td48 0xC10000000000#48 0xFF0300000000#48
  | .nop => .td48 0xC00800000000#48 0xFFFFFFFFFFFF#48
  | .permute => .td48 0xC00800000001#48 0xFFFFFFFFFFFF#48
  | .hash => .td48 0xC00800000002#48 0xFFFFFFFFFFFF#48
  | .softReset => .td48 0xC00800000003#48 0xFFFFFFFFFFFF#48
  | .dqHost => .dq42 0x00000000000#42 0x3FFFFFFFFFF#42
  | .dqPivot _ => .dq42 0x10000000000#42 0x300FFFFFFFF#42
  | .dqSource _ _ => .dq42 0x20000000000#42 0x30000000000#42

/-- A frame carries the fixed bits of a row. -/
def carries : Frame → Row → Bool
  | .td48 w, .td48 bits mask => w &&& mask == bits
  | .dq42 w, .dq42 bits mask => w &&& mask == bits
  | _, _ => false

/-- The frame of the instruction, if it is well-formed for the default engine, carries its row's fixed
bits. -/
def Statement (i : Instr) : Prop :=
  i.wellFormed Config.defaultSeedCap = true → carries (encode i) (row i) = true

/-- The fixed bits of a header, the data of the descriptor left free. -/
theorem header_bits (w : Bool) (off : Offset) (data : Word) (h m : BitVec 16)
    (bits mask : BitVec 48) (hb : bits = h ++ 0#32) (hm : mask = m ++ 0#32)
    (hh : (BitVec.ofBool w ++ 2#2 ++ 0#1 ++ off) &&& m = h) :
    carries (.td48 (descriptorBits ⟨w, 2#2, false, off, data⟩)) (.td48 bits mask) = true := by
  have e : (BitVec.ofBool w ++ 2#2 ++ 0#1 ++ off ++ data) &&& (m ++ 0#32) =
      ((BitVec.ofBool w ++ 2#2 ++ 0#1 ++ off) &&& m) ++ (data &&& 0#32) := BitVec.and_append
  rw [hh, BitVec.and_zero] at e
  rw [hb, hm]
  exact beq_iff_eq.mpr e

theorem rd (r : Reg) : Statement (.rd r) := by
  intro _
  refine header_bits false (regOffset r) 0#32 0x4000#16 0xF003#16 _ _ (by decide) (by decide) ?_
  have ho : regOffset r &&& 3#12 = 0#12 := by
    have := congrArg BitVec.toNat (regOffset_aligned r)
    rw [toNat_extract] at this
    apply BitVec.eq_of_toNat_eq
    rw [BitVec.toNat_and]
    exact (Nat.and_two_pow_sub_one_eq_mod _ 2).trans (by simpa using this)
  have e : (4#4 ++ regOffset r) &&& (0xF#4 ++ 3#12) = (4#4 &&& 0xF#4) ++ (regOffset r &&& 3#12) :=
    BitVec.and_append
  rw [ho] at e
  exact e

theorem wrSeed (j : BitVec 8) (data : Word) : Statement (.wrSeed j data) := by
  intro hw
  have hj : 4 * j.toNat < 256 := (seedMapped_iff _ _).mp hw
  refine header_bits true (regOffset (.seed j)) data 0xC100#16 0xFF03#16 _ _ (by decide)
    (by decide) ?_
  have ho : regOffset (.seed j) = 1#4 ++ BitVec.ofNat 8 (4 * j.toNat) := by
    apply BitVec.eq_of_toNat_eq
    rw [seed_offset_toNat, toNat_append_mul, BitVec.toNat_ofNat]
    simp
    omega
  have h3 : BitVec.ofNat 8 (4 * j.toNat) &&& 3#8 = 0#8 := by
    apply BitVec.eq_of_toNat_eq
    rw [BitVec.toNat_and, BitVec.toNat_ofNat]
    refine (Nat.and_two_pow_sub_one_eq_mod _ 2).trans ?_
    simp
  rw [ho]
  have e : (0xC1#8 ++ BitVec.ofNat 8 (4 * j.toNat)) &&& (0xFF#8 ++ 3#8) =
      (0xC1#8 &&& 0xFF#8) ++ (BitVec.ofNat 8 (4 * j.toNat) &&& 3#8) := BitVec.and_append
  rw [h3] at e
  have a : (BitVec.ofBool true ++ 2#2 ++ 0#1 ++
      (1#4 ++ BitVec.ofNat 8 (4 * j.toNat)) : BitVec 16) =
      0xC1#8 ++ BitVec.ofNat 8 (4 * j.toNat) := by
    apply BitVec.eq_of_toNat_eq
    simp only [toNat_append_mul, ofBool_toNat]
    simp
    omega
  exact (congrArg (· &&& 0xFF03#16) a).trans e

theorem wrIndexLo (data : Word) : Statement (.wrIndexLo data) := fun _ =>
  header_bits true 0x010#12 data 0xC010#16 0xFFFF#16 _ _ (by decide) (by decide) (by decide)

theorem wrIndexHi (data : Word) : Statement (.wrIndexHi data) := fun _ =>
  header_bits true 0x014#12 data 0xC014#16 0xFFFF#16 _ _ (by decide) (by decide) (by decide)

theorem wrListSizeLo (data : Word) : Statement (.wrListSizeLo data) := fun _ =>
  header_bits true 0x018#12 data 0xC018#16 0xFFFF#16 _ _ (by decide) (by decide) (by decide)

theorem wrListSizeHi (data : Word) : Statement (.wrListSizeHi data) := fun _ =>
  header_bits true 0x01C#12 data 0xC01C#16 0xFFFF#16 _ _ (by decide) (by decide) (by decide)

theorem wrSeedLen (data : Word) : Statement (.wrSeedLen data) := fun _ =>
  header_bits true 0x020#12 data 0xC020#16 0xFFFF#16 _ _ (by decide) (by decide) (by decide)

theorem wrIrqEn (data : Word) : Statement (.wrIrqEn data) := fun _ =>
  header_bits true 0x02C#12 data 0xC02C#16 0xFFFF#16 _ _ (by decide) (by decide) (by decide)

theorem wrIrqStatus (data : Word) : Statement (.wrIrqStatus data) := fun _ =>
  header_bits true 0x030#12 data 0xC030#16 0xFFFF#16 _ _ (by decide) (by decide) (by decide)

theorem nop : Statement .nop := fun _ => by decide

theorem permute : Statement .permute := fun _ => by decide

theorem hash : Statement .hash := fun _ => by decide

theorem softReset : Statement .softReset := fun _ => by decide

theorem dqHost : Statement .dqHost := fun _ => by decide

theorem dqPivot (rnd : Byte) : Statement (.dqPivot rnd) := by
  intro _
  have e : (1#2 ++ rnd ++ 0#32) &&& (3#2 ++ 0#8 ++ 0xFFFFFFFF#32) =
      ((1#2 ++ rnd) &&& (3#2 ++ 0#8)) ++ (0#32 &&& 0xFFFFFFFF#32) := BitVec.and_append
  have e' : (1#2 ++ rnd) &&& (3#2 ++ 0#8) = (1#2 &&& 3#2) ++ (rnd &&& 0#8) := BitVec.and_append
  rw [e', BitVec.and_zero] at e
  exact beq_iff_eq.mpr e

theorem dqSource (rnd : Byte) (blk : Word) : Statement (.dqSource rnd blk) := by
  intro _
  have e : (2#2 ++ rnd ++ blk) &&& (3#2 ++ 0#8 ++ 0#32) =
      ((2#2 ++ rnd) &&& (3#2 ++ 0#8)) ++ (blk &&& 0#32) := BitVec.and_append
  have e' : (2#2 ++ rnd) &&& (3#2 ++ 0#8) = (2#2 &&& 3#2) ++ (rnd &&& 0#8) := BitVec.and_append
  rw [e', BitVec.and_zero, BitVec.and_zero] at e
  exact beq_iff_eq.mpr e

end Sys2Proof.Laws.TableRow
end

