-- ==== Sys2Proof/Laws/Step.lean ====
section
/-! SUPPORT. What a step can do, said once: the cases of a step, of a controller step and of an
instruction. Every invariant and every rule about the whole machine follows from these. -/

namespace Sys2Proof.Machine

/-! ### Instructions -/

/-- `t` is `s` with one of the busy-protected registers written (R200, `Protected`). -/
inductive OperandWrite (s : State) : State → Prop where
  | indexLo (d : Word) : OperandWrite s { s with indexLo := d }
  | indexHi (d : Word) : OperandWrite s { s with indexHi := d }
  | listSizeLo (d : Word) : OperandWrite s { s with listSizeLo := d }
  | listSizeHi (d : Word) : OperandWrite s { s with listSizeHi := d }
  | seedLen (d : BitVec 11) (h : d.toNat ≤ s.seedCap) : OperandWrite s { s with seedLen := d }
  | seed (j : BitVec 8) (d : Word) : OperandWrite s (writeSeedWord j d s)

/-- What an instruction can do (R200, R206, R207, R211, R212, R136 to R140, R163, R245): report a
bus error, respond, write an operand, write an interrupt register, reset, fail or start a PERMUTE,
start a HASH, or answer a query. -/
inductive ExecEffect (s : State) : Instr → State → Prop where
  | rejected (i : Instr) (c : BusCause) (off : Offset) (w : Bool)
      (hc : 3 ≤ (causeCode c).toNat → w = true) :
      ExecEffect s i (raiseBusError c off w s)
  | read (r : Reg) : ExecEffect s (.rd r) (respond (.read (readValue r s) .okay) s)
  | written (i : Instr) (t : State) (h : OperandWrite s t) (hb : s.status.busy = false) :
      ExecEffect s i (okWrite t)
  | irqEn (d : Word) (h : d.toNat < 2) :
      ExecEffect s (.wrIrqEn d) (okWrite { s with irqEn := d.getLsbD 0 })
  | irqStatus (d : Word) (h : d.toNat < 2) :
      ExecEffect s (.wrIrqStatus d)
        (okWrite { s with irqPend := if d.getLsbD 0 then false else s.irqPend })
  | nop : ExecEffect s .nop (okWrite s)
  | softReset : ExecEffect s .softReset (okWrite (clearAllButSeed s))
  | permuteFails (e : OpError) (hb : s.status.busy = false) (he : permuteError s = some e) :
      ExecEffect s .permute (failOpError e s)
  | permuteStarts (hb : s.status.busy = false) (he : permuteError s = none) :
      ExecEffect s .permute (okWrite (startPermute s))
  | hashStarts (hb : s.status.busy = false) :
      ExecEffect s .hash
        (okWrite { s with status := acceptedStatus opHash true, phase := .hash, round := 0#7 })
  | answered (i : Instr) (m : List Byte) : ExecEffect s i (answer m s)

/-- A protected write: rejected while busy, else written. -/
theorem unlessBusy_effect (i : Instr) (off : Offset) (s t : State) (h : OperandWrite s t) :
    ExecEffect s i (unlessBusy off s (okWrite t)) := by
  cases hb : s.status.busy
  · rw [unlessBusy_free _ _ _ hb]
    exact .written i t h hb
  · rw [unlessBusy_busy _ _ _ hb]
    exact .rejected i _ _ _ (fun _ => rfl)

/-- Every instruction answers a next state, and that state is one of these effects. -/
theorem exec_effect (i : Instr) (s : State) : ∃ t, exec i s = .next t ∧ ExecEffect s i t := by
  cases i with
  | rd r =>
    refine ⟨_, rfl, ?_⟩
    split
    · exact .read r
    · exact .rejected _ _ _ _ (by intro h; revert h; decide)
  | wrIndexLo d => exact ⟨_, rfl, unlessBusy_effect _ _ _ _ (.indexLo d)⟩
  | wrIndexHi d => exact ⟨_, rfl, unlessBusy_effect _ _ _ _ (.indexHi d)⟩
  | wrListSizeLo d => exact ⟨_, rfl, unlessBusy_effect _ _ _ _ (.listSizeLo d)⟩
  | wrListSizeHi d => exact ⟨_, rfl, unlessBusy_effect _ _ _ _ (.listSizeHi d)⟩
  | wrSeedLen d =>
    refine ⟨_, rfl, ?_⟩
    split
    · rename_i h
      have hl := (legalSeedLen_iff _ _).mp h
      refine unlessBusy_effect _ _ _ _ (.seedLen _ ?_)
      rw [toNat_extract]
      omega
    · exact .rejected _ _ _ _ (fun _ => rfl)
  | wrIrqEn d =>
    refine ⟨_, rfl, ?_⟩
    split
    · exact .irqEn d ((legalFlag_iff d).mp (by assumption))
    · exact .rejected _ _ _ _ (fun _ => rfl)
  | wrIrqStatus d =>
    refine ⟨_, rfl, ?_⟩
    split
    · exact .irqStatus d ((legalFlag_iff d).mp (by assumption))
    · exact .rejected _ _ _ _ (fun _ => rfl)
  | wrSeed j d =>
    refine ⟨_, rfl, ?_⟩
    split
    · exact unlessBusy_effect _ _ _ _ (.seed j d)
    · exact .rejected _ _ _ _ (fun _ => rfl)
  | nop => exact ⟨_, rfl, .nop⟩
  | permute =>
    refine ⟨_, rfl, ?_⟩
    cases hb : s.status.busy
    · rw [unlessBusy_free _ _ _ hb]
      cases he : permuteError s with
      | none => exact .permuteStarts hb he
      | some e => exact .permuteFails e hb he
    · rw [unlessBusy_busy _ _ _ hb]
      exact .rejected _ _ _ _ (fun _ => rfl)
  | hash =>
    refine ⟨_, rfl, ?_⟩
    cases hb : s.status.busy
    · rw [unlessBusy_free _ _ _ hb]
      exact .hashStarts hb
    · rw [unlessBusy_busy _ _ _ hb]
      exact .rejected _ _ _ _ (fun _ => rfl)
  | softReset => exact ⟨_, rfl, .softReset⟩
  | dqHost => exact ⟨_, rfl, .answered _ _⟩
  | dqPivot rnd => exact ⟨_, rfl, .answered _ _⟩
  | dqSource rnd blk => exact ⟨_, rfl, .answered _ _⟩

/-- If an instruction answers a next state, that state is one of its effects. -/
theorem exec_cases (i : Instr) (s t : State) (h : exec i s = .next t) : ExecEffect s i t := by
  obtain ⟨u, hu, he⟩ := exec_effect i s
  obtain rfl : u = t := by rw [hu] at h; exact Host.Outcome.next.inj h
  exact he

/-! ### The controller -/

/-- What a controller step can do (R141, R170, R171, R175). -/
inductive ControllerEffect (s : State) : State → Prop where
  | idle (h : s.phase = .idle) : ControllerEffect s s
  | hash (h : s.phase = .hash) : ControllerEffect s (hashStep s)
  | pivot (h : s.phase = .pivot) (hr : s.round.toNat < 90) : ControllerEffect s (pivotStep s)
  | source (h : s.phase = .source) (hr : s.round.toNat < 89) :
      ControllerEffect s
        { advanceRound (answer (sourceMessage s.rnd (blockIndex s.pos) s) s) with phase := .pivot }
  | complete (h : s.phase = .source) (hr : s.round.toNat = 89) :
      ControllerEffect s
        (completePermute (advanceRound (answer (sourceMessage s.rnd (blockIndex s.pos) s) s)))

theorem round_succ_toNat (r : BitVec 7) (h : r.toNat < 90) :
    (r + 1#7).toNat = r.toNat + 1 := by
  rw [BitVec.toNat_add]
  simp
  omega

/-- If the controller answers a next state, that state is one of its effects. -/
theorem controllerStep_cases (s t : State) (h : controllerStep s = .next t) :
    ControllerEffect s t := by
  unfold controllerStep at h
  split at h
  · obtain rfl : s = t := Host.Outcome.next.inj h
    exact .idle (by assumption)
  · obtain rfl : hashStep s = t := Host.Outcome.next.inj h
    exact .hash (by assumption)
  · split at h
    · obtain rfl : pivotStep s = t := Host.Outcome.next.inj h
      exact .pivot (by assumption) (by assumption)
    · cases h
  · split at h
    · rename_i hp hr
      have hr' : s.round.toNat < 90 := hr
      obtain rfl : sourceStep s = t := Host.Outcome.next.inj h
      by_cases h89 : s.round.toNat = 89
      · have e : sourceStep s = completePermute
            (advanceRound (answer (sourceMessage s.rnd (blockIndex s.pos) s) s)) := by
          unfold sourceStep
          rw [if_pos (by simp [round_succ_toNat _ hr', Config.rounds]; omega)]
        rw [e]
        exact .complete hp h89
      · have e : sourceStep s =
            { advanceRound (answer (sourceMessage s.rnd (blockIndex s.pos) s) s) with
              phase := .pivot } := by
          unfold sourceStep
          rw [if_neg (by simp [round_succ_toNat _ hr', Config.rounds]; omega)]
        rw [e]
        exact .source hp (by omega)
    · cases h

/-! ### A step -/

/-- What performing what reaches the engine can do: reset, run an instruction, or report the bus error
of the decoding. -/
inductive EventEffect (s : State) : Event → State → Prop where
  | reset : EventEffect s .reset (hardwareReset s)
  | transaction (w : BitVec 48) (i : Instr) (t : State)
      (hd : decode s.seedCap (.td48 w) = .instr i) (he : ExecEffect s i t) :
      EventEffect s (.transaction w) t
  | rejected (w : BitVec 48) (c : BusCause) (off : Offset) (b : Bool)
      (hd : decode s.seedCap (.td48 w) = .busError c off b)
      (hc : 3 ≤ (causeCode c).toNat → b = true) :
      EventEffect s (.transaction w) (raiseBusError c off b s)
  | query (w : BitVec 42) (m : List Byte) : EventEffect s (.query w) (answer m s)

/-- A query decodes to a query instruction or to nothing (R103). -/
theorem decodeQuery_cases (q : Query) :
    decodeQuery q = .instr .dqHost ∨ decodeQuery q = .instr (.dqPivot q.rnd) ∨
    decodeQuery q = .instr (.dqSource q.rnd q.blk) ∨ ∃ e, decodeQuery q = .invalid e := by
  unfold decodeQuery
  repeat' split
  all_goals simp

/-- If a transaction descriptor is performed, the state is one of its effects. -/
theorem transaction_cases (w : BitVec 48) (s t : State)
    (h : runDecoded (decode s.seedCap (.td48 w)) s = .next t) :
    EventEffect s (.transaction w) t := by
  cases hd : decode s.seedCap (.td48 w) with
  | instr i =>
    rw [hd] at h
    exact .transaction w i t hd (exec_cases i s t h)
  | busError c off b =>
    rw [hd] at h
    obtain rfl : raiseBusError c off b s = t := Host.Outcome.next.inj h
    refine .rejected w c off b hd ?_
    intro hc
    rcases (decodeDescriptor_busError _ _ _ _ _ hd).2.2 with rfl | rfl | hw
    · exact absurd hc (by decide)
    · exact absurd hc (by decide)
    · exact hw
  | invalid why => rw [hd] at h; cases h

/-- If an arrival is performed, it never reached the engine and nothing has changed (R83), or the state
is one of the effects of what reached it. -/
theorem performEvent_cases (e : Event) (s t : State) (h : performEvent e s = .next t) :
    (arrivesAs s.base e = none ∧ t = s) ∨
      ∃ a, arrivesAs s.base e = some a ∧ EventEffect s a t := by
  cases e with
  | reset =>
    obtain rfl : hardwareReset s = t := Host.Outcome.next.inj h
    exact .inr ⟨_, rfl, .reset⟩
  | access a =>
    simp only [performEvent] at h
    simp only [arrivesAs]
    cases hw : busWord s.base a with
    | some w =>
      rw [hw] at h
      exact .inr ⟨_, rfl, transaction_cases w s t h⟩
    | none =>
      rw [hw] at h
      exact .inl ⟨rfl, (Host.Outcome.next.inj h).symm⟩
  | transaction w => exact .inr ⟨_, rfl, transaction_cases w s t h⟩
  | query w =>
    refine .inr ⟨_, rfl, ?_⟩
    simp only [performEvent, decode] at h
    rcases decodeQuery_cases (queryOfBits w) with hd | hd | hd | ⟨e, hd⟩ <;> rw [hd] at h
    · obtain rfl : _ = t := Host.Outcome.next.inj h
      exact .query w _
    · obtain rfl : _ = t := Host.Outcome.next.inj h
      exact .query w _
    · obtain rfl : _ = t := Host.Outcome.next.inj h
      exact .query w _
    · cases h

/-- What a step can do: the controller's step, nothing (the host has nothing to perform), the
passing of an access outside the window (R83), or the performing of the first arrival (R15, R85). -/
inductive StepEffect (s : State) : State → Prop where
  | controller (t : State) (ha : nextAgent s = .controller)
      (h : ControllerEffect { s with schedule := s.schedule.tail } t) : StepEffect s t
  | nothing (ha : nextAgent s = .host) (he : s.events = []) :
      StepEffect s { s with schedule := s.schedule.tail }
  | passes (a : Event) (rest : List Event) (ha : nextAgent s = .host)
      (he : s.events = a :: rest) (hr : arrivesAs s.base a = none) :
      StepEffect s { s with schedule := s.schedule.tail, events := rest }
  | performs (a e : Event) (rest : List Event) (t : State) (ha : nextAgent s = .host)
      (he : s.events = a :: rest) (hr : arrivesAs s.base a = some e)
      (h : EventEffect { s with schedule := s.schedule.tail, events := rest } e t) :
      StepEffect s t

/-- If a step answers a next state, the engine is well-formed and the state is one of its
effects. -/
theorem step_cases (s t : State) (h : step s = .next t) :
    Config.legalSeedCap s.seedCap = true ∧ StepEffect s t := by
  unfold step at h
  split at h
  · rename_i hc
    refine ⟨hc, ?_⟩
    cases ha : nextAgent s with
    | controller =>
      rw [ha] at h
      exact .controller t ha (controllerStep_cases _ t h)
    | host =>
      rw [ha] at h
      simp only [agentStep, hostStep] at h
      cases he : s.events with
      | nil =>
        simp only [he] at h
        obtain rfl : _ = t := Host.Outcome.next.inj h
        rw [← he]
        exact .nothing ha he
      | cons e rest =>
        simp only [he] at h
        rcases performEvent_cases e _ t h with ⟨hr, rfl⟩ | ⟨a, hr, hx⟩
        · exact .passes e rest ha he hr
        · exact .performs e a rest t ha he hr hx
  · cases h

/-! ### Runs -/

/-- The last step of a run of `k + 1` steps is a step from where `k` steps lead. -/
theorem run_succ (M : Host.Core) (k : Nat) (s : M.State) :
    M.run (k + 1) s =
      match M.run k s with
      | .next t => M.step t
      | .fault r => .fault r
      | .refused r => .refused r := by
  induction k generalizing s with
  | zero => simp only [Host.Core.run]; cases M.step s <;> rfl
  | succ k ih =>
    rw [Host.Core.run]
    cases h : M.step s with
    | next t => simp only; rw [ih]; conv => rhs; rw [Host.Core.run, h]
    | fault r => simp only; conv => rhs; rw [Host.Core.run, h]
    | refused r => simp only; conv => rhs; rw [Host.Core.run, h]

/-- A run lengthened by one step. -/
theorem run_next (k : Nat) (s t u : State) (h : Host.Core.run Sys2Proof.core k s = .next t)
    (hu : step t = .next u) : Host.Core.run Sys2Proof.core (k + 1) s = .next u := by
  refine (run_succ Sys2Proof.core k s).trans ?_
  rw [h]
  exact hu

end Sys2Proof.Machine
end

