-- ==== Sys2Proof/Tests/Slice0.lean ====
section
/-! SUPPORT. Tests: the well-formedness checks, a word of every instruction written out from
spec/30_encoding.md, one step of every instruction against the spec's vectors and rules
(spec/95_test_vectors.md), and for each statement with hypotheses a state that meets them. -/

namespace Sys2Proof.Tests

open Sys2Proof Sys2Proof.Machine

/-! ### Small states -/

/-- The fixture seed `seed_0` of spec/95_test_vectors.md §2. -/
def seed0 : List Byte :=
  [0xdf#8, 0x3f#8, 0x61#8, 0x98#8, 0x04#8, 0xa9#8, 0x2f#8, 0xdb#8,
   0x40#8, 0x57#8, 0x19#8, 0x2d#8, 0xc4#8, 0x3d#8, 0xd7#8, 0x48#8,
   0xea#8, 0x77#8, 0x8a#8, 0xdc#8, 0x52#8, 0xbc#8, 0x49#8, 0x8c#8,
   0xe8#8, 0x05#8, 0x24#8, 0xc0#8, 0x14#8, 0xb8#8, 0x11#8, 0x19#8]

/-- An idle default engine after reset, its seed buffer written with `seed_0` and zeros. -/
def idleState : State :=
  { State.afterReset 0x40010 256 0 with seed := seed0 ++ List.replicate 224 0#8, seedLen := 32#11 }

/-- The idle engine with its operands written. -/
def withOperands (index listSize : BitVec 64) : State :=
  { idleState with
    indexLo := index.extractLsb' 0 32, indexHi := index.extractLsb' 32 32
    listSizeLo := listSize.extractLsb' 0 32, listSizeHi := listSize.extractLsb' 32 32 }

/-- The engine in a round of a PERMUTE. -/
def inRound (phase : Phase) (round : BitVec 7) (index listSize : BitVec 64) : State :=
  { withOperands index listSize with
    status := { acceptedStatus opPermute true with round := round }
    phase := phase, round := round, widx := index.setWidth 40, n := listSize.setWidth 41 }

/-- The engine while it runs a HASH. -/
def inHash : State :=
  { idleState with status := acceptedStatus opHash true, phase := .hash }

/-- The engine while it runs a PERMUTE of one element. -/
def busyState : State := inRound .pivot 0#7 0#64 1#64

/-- A property of the next state of an outcome. -/
def holds (r : Host.Outcome State Fault Refusal) (p : State → Bool) : Bool :=
  match r with
  | .next t => p t
  | _ => false

/-- The response is an OKAY read with this data. -/
def reads (x : Word) (t : State) : Bool := t.busResp == some (.read x .okay)

/-- The response is an OKAY write. -/
def wrote (t : State) : Bool := t.busResp == some (.write .okay)

/-- The response is SLVERR and `BUSERR` reads this word. -/
def failed (x : Word) (t : State) : Bool :=
  (t.busResp == some (.write .slverr) || t.busResp == some (.read 0#32 .slverr)) &&
    t.busErr.word == x

/-- A transaction performed in a state. -/
def transact (w : BitVec 48) (s : State) : Host.Outcome State Fault Refusal :=
  runDecoded (decode s.seedCap (.td48 w)) s

/-! ### Well-formedness: each check refuses an ill-formed instruction -/

theorem test_wf_rd_seed : (Instr.rd (.seed 64#8)).wellFormed 256 = false ∧
    (Instr.rd (.seed 63#8)).wellFormed 256 = true := by decide

theorem test_wf_wrSeed : (Instr.wrSeed 8#8 0#32).wellFormed 32 = false ∧
    (Instr.wrSeed 7#8 0#32).wellFormed 32 = true := by decide

theorem test_wf_dqPivot : (Instr.dqPivot 90#8).wellFormed 256 = false ∧
    (Instr.dqPivot 89#8).wellFormed 256 = true := by decide

theorem test_wf_dqSource : (Instr.dqSource 90#8 0#32).wellFormed 256 = false ∧
    (Instr.dqSource 89#8 0#32).wellFormed 256 = true := by decide

theorem test_wf_cap : Config.legalSeedCap 28 = false ∧ Config.legalSeedCap 33 = false ∧
    Config.legalSeedCap 1028 = false ∧ Config.legalSeedCap 32 = true ∧
    Config.legalSeedCap 1024 = true := by decide

/-! ### Decoding: words from R102, R103, R110 and the listings of spec/95_test_vectors.md §8 -/

theorem test_decode_rd : decodeTableWord 48 0x404000000000 = some (.rd (.digest 0)) := by decide

theorem test_decode_wrIndexLo : decodeTableWord 48 0xC010FFFFFFFF = some (.wrIndexLo 0xFFFFFFFF#32) := by decide

theorem test_decode_wrIndexHi : decodeTableWord 48 0xC014000000FF = some (.wrIndexHi 0xFF#32) := by decide

theorem test_decode_wrListSizeLo : decodeTableWord 48 0xC018000003E8 = some (.wrListSizeLo 0x3E8#32) := by decide

theorem test_decode_wrListSizeHi : decodeTableWord 48 0xC01C00000100 = some (.wrListSizeHi 0x100#32) := by decide

theorem test_decode_wrSeedLen : decodeTableWord 48 0xC02000000020 = some (.wrSeedLen 0x20#32) := by decide

theorem test_decode_wrIrqEn : decodeTableWord 48 0xC02C00000001 = some (.wrIrqEn 1#32) := by decide

theorem test_decode_wrIrqStatus : decodeTableWord 48 0xC03000000001 = some (.wrIrqStatus 1#32) := by decide

theorem test_decode_wrSeed : decodeTableWord 48 0xC11C1911B814 = some (.wrSeed 7#8 0x1911B814#32) := by decide

theorem test_decode_nop : decodeTableWord 48 0xC00800000000 = some (.nop) := by decide

theorem test_decode_permute : decodeTableWord 48 0xC00800000001 = some (.permute) := by decide

theorem test_decode_hash : decodeTableWord 48 0xC00800000002 = some (.hash) := by decide

theorem test_decode_softReset : decodeTableWord 48 0xC00800000003 = some (.softReset) := by decide

theorem test_decode_dqHost : decodeTableWord 48 0x00000000000 = some (.dqHost) := by decide

theorem test_decode_dqPivot : decodeTableWord 48 0x10500000000 = some (.dqPivot 5#8) := by decide

theorem test_decode_dqSource : decodeTableWord 48 0x2003A4C8D2E = some (.dqSource 0#8 0x3A4C8D2E#32) := by decide

/-- V-E2 rows 1, 4, 5 and 7 decode to their bus errors (R105). -/
theorem test_decode_busErrors :
    decode 256 (.td48 0x001100000000#48) = .busError .misaligned 0x011#12 false ∧
    decode 256 (.td48 0xC03800000000#48) = .busError .unmapped 0x038#12 true ∧
    decode 256 (.td48 0xC00C00000000#48) = .busError .readOnly 0x00C#12 true ∧
    decode 256 (.td48 0xC00800000004#48) = .busError .illegalValue 0x008#12 true := by decide

/-- R102, R103: the frames that spell nothing. -/
theorem test_decode_invalid :
    decode 256 (.td48 0x600000000000#48) = .invalid .sizeCode ∧
    decode 256 (.td48 0x500000000000#48) = .invalid .reservedBit ∧
    decode 256 (.td48 0x400000000001#48) = .invalid .readData ∧
    decode 256 (.dq42 0x30000000000#42) = .invalid .queryKind ∧
    decode 256 (.dq42 0x00100000000#42) = .invalid .queryHostFields ∧
    decode 256 (.dq42 0x10000000001#42) = .invalid .queryPivotBlock := by decide

/-! ### One step of each instruction -/

theorem test_rd_seed_word :
    holds (transact 0x410000000000#48 idleState) (reads 0x98613FDF#32) = true := by decide

/-- V-E2 row 3. -/
theorem test_rd_unmapped :
    holds (transact 0x420000000000#48 idleState) (failed 0x80002200#32) = true := by decide

theorem test_wrIndexLo :
    holds (transact 0xC010FFFFFFFF#48 idleState)
      (fun t => wrote t && t.index == 0xFFFFFFFF#64) = true := by decide

/-- V-E2 row 11. -/
theorem test_wrIndexLo_busy :
    holds (transact 0xC01000000000#48 busyState) (failed 0x8000D010#32) = true := by decide

theorem test_wrIndexHi :
    holds (transact 0xC014000000FF#48 idleState)
      (fun t => wrote t && t.index == 0xFF00000000#64) = true := by decide

theorem test_wrListSizeLo :
    holds (transact 0xC018000003E8#48 idleState)
      (fun t => wrote t && t.listSize == 1000#64) = true := by decide

theorem test_wrListSizeHi :
    holds (transact 0xC01C00000100#48 idleState)
      (fun t => wrote t && t.listSize == 0x10000000000#64) = true := by decide

/-- `SEED_LEN = SEED_CAP` is legal (R204). -/
theorem test_wrSeedLen_cap :
    holds (transact 0xC02000000100#48 idleState)
      (fun t => wrote t && t.seedLen == 256#11) = true := by decide

/-- V-E2 row 14: ILLEGAL_VALUE before BUSY. -/
theorem test_wrSeedLen_illegal_first :
    holds (transact 0xC02000001000#48 busyState) (failed 0x8000C020#32) = true := by decide

/-- V-E2 row 10. -/
theorem test_wrIrqEn_illegal :
    holds (transact 0xC02C00000002#48 idleState) (failed 0x8000C02C#32) = true := by decide

/-- R251: enabling with `PEND = 1` asserts `irq` at once. -/
theorem test_wrIrqEn_asserts :
    holds (transact 0xC02C00000001#48 { idleState with irqPend := true })
      (fun t => wrote t && t.irq) = true := by decide

/-- V-E2 row 15: the `ack` is never BUSY. -/
theorem test_ack_busy :
    holds (transact 0xC03000000001#48 { busyState with irqPend := true })
      (fun t => wrote t && !t.irqPend && t.busErr.word == 0#32) = true := by decide

/-- R205: the last word of the window, byte lane 0 first. -/
theorem test_wrSeed_last :
    holds (transact 0xC1FC44332211#48 idleState) (fun t => wrote t && t.seed.length == 256 &&
      t.seed.drop 251 == [0#8, 0x11#8, 0x22#8, 0x33#8, 0x44#8]) = true := by decide +kernel

/-- V-E2 row 16. -/
theorem test_nop_busy :
    holds (transact 0xC00800000000#48 busyState)
      (fun t => wrote t && t == { busyState with busResp := some (.write .okay) }) = true := by
  decide +kernel

/-- R163: the status after acceptance, `RESULT` kept, `widx` and `n` latched at 40 and 41 bits. -/
theorem test_permute_accepted :
    holds (transact 0xC00800000001#48 
        { withOperands 0xFFFFFFFFFF#64 0x10000000000#64 with resultLo := 7#32 })
      (fun t => wrote t && t.status.word == 0x00010001#32 && t.widx == 0xFFFFFFFFFF#40 &&
        t.n == 0x10000000000#41 && t.result == 7#64) = true := by decide

/-- V-E1 rows 3 and 5, with `PEND` set. -/
theorem test_permute_fails :
    holds (transact 0xC00800000001#48 (withOperands 0#64 1099511627777#64))
      (fun t => wrote t && t.status.word == 0x00010026#32 && t.irqPend) = true ∧
    holds (transact 0xC00800000001#48 (withOperands 2199023255552#64 2199023255552#64))
      (fun t => wrote t && t.status.word == 0x00010016#32 && t.irqPend) = true := by decide

/-- R140: HASH accepted, `PEND` kept. -/
theorem test_hash_accepted :
    holds (transact 0xC00800000002#48 idleState)
      (fun t => wrote t && t.status.word == 0x00020001#32 && t.phase == .hash && !t.irqPend) =
      true := by decide

/-- V-E2 row 12. -/
theorem test_hash_busy :
    holds (transact 0xC00800000002#48 busyState) (failed 0x8000D008#32) = true := by decide

/-- Program P5: SOFT_RESET keeps the seed bytes and clears the rest. -/
theorem test_softReset :
    holds (transact 0xC00800000003#48 
        { busyState with irqEn := true, irqPend := true, resultLo := 1#32 })
      (fun t => wrote t && t == { idleState with
        seedLen := 0#11, busResp := some (.write .okay) }) = true := by decide +kernel

/-- V-H2, "abc": digest byte 0 is 0xba and byte 31 is 0xad. -/
theorem test_dqHost_abc :
    holds (exec .dqHost { idleState with seed := [0x61#8, 0x62#8, 0x63#8], seedLen := 3#11 })
      (fun t => t.dqAnswer ==
        0xad1500f261ff10b49c7a1796a36103b02322ae5dde404141eacf018fbf1678ba#256) = true := by
  decide +kernel

/-- V-Q2: `seed_0`, round 1. -/
theorem test_dqPivot_round1 :
    holds (exec (.dqPivot 1#8) idleState)
      (fun t => digestLow64 t.dqAnswer == 0xd801ef6a10e3f853) = true := by decide +kernel

/-- V-R9: `seed_0`, round 0, block 3, byte 16. -/
theorem test_dqSource_block3 :
    holds (exec (.dqSource 0#8 3#32) idleState)
      (fun t => digestByte t.dqAnswer 16 == 0x59#8) = true := by decide +kernel

/-! ### The controller -/

/-- V-H1 through the HASH step: the digest words of the empty message. -/
theorem test_hash_step :
    holds (controllerStep { inHash with seedLen := 0#11 })
      (fun t => t.digest.toList == [0x42C4B0E3#32, 0x141CFC98#32, 0xC8F4FB9A#32, 0x24B96F99#32,
          0xE441AE27#32, 0x4C939B64#32, 0x1B9995A4#32, 0x55B85278#32] &&
        t.status.word == 0x00020002#32 && t.irqPend) = true := by decide +kernel

/-- V-R7, steps 1 to 3: the greatest position. -/
theorem test_pivot_step :
    holds (controllerStep (inRound .pivot 0#7 1099511627775#64 1099511627776#64))
      (fun t => t.pivot == 250392424128#40 && t.flip == 250392424129#40 &&
        t.pos == 1099511627775#40 && t.phase == .source) = true := by decide +kernel

/-- V-R9, steps 4 to 7: position 900, bit 1, the index becomes 668. -/
theorem test_source_step :
    holds (controllerStep { inRound .source 0#7 900#64 1000#64 with
        pivot := 568#40, flip := 668#40, pos := 900#40 })
      (fun t => t.widx == 668#40 && t.round == 1#7 && t.status.round == 1#7 &&
        t.phase == .pivot) = true := by decide +kernel

/-- V-T1, round 89: the last source step completes with `RESULT = 2`. -/
theorem test_completion :
    holds (controllerStep { inRound .source 89#7 2#64 3#64 with
        pivot := 2#40, flip := 0#40, pos := 2#40 })
      (fun t => t.result == 2#64 && t.status.word == 0x00015A02#32 && t.irqPend &&
        t.phase == .idle) = true := by decide +kernel

/-! ### The window at `BASE` -/

/-- The word at `BASE + 0x010` is `INDEX_LO` (R20, R72): here `BASE` is 0x4001_0000. -/
theorem test_access_window :
    idleState.base = 0x40010000 ∧
    holds (step { idleState with events := [.access (.write 0x40010010 .four 7#32)] })
      (fun t => t.indexLo == 7#32 && wrote t) = true ∧
    holds (step { idleState with events := [.access (.read 0x40010FFE .two)] })
      (failed 0x80001FFE#32) = true := by decide

/-- An access one byte below the window, and one at its end, do not reach the engine (R83). -/
theorem test_access_outside :
    holds (step { idleState with events := [.access (.write 0x4000FFFF .four 7#32)] })
      (fun t => t.busErr.word == 0#32 && t.busResp == none) = true ∧
    holds (step { idleState with events := [.access (.write 0x40011000 .four 7#32)] })
      (fun t => t.busErr.word == 0#32 && t.busResp == none) = true := by decide

/-! ### Placing and choosing -/

/-- The first step after reset runs the placed word. -/
theorem test_fetch :
    holds (step (State.reset.withFetchWord 48 0xC01000000007))
      (fun t => t.indexLo == 7#32 && wrote t) = true := by decide

/-- R15: with the schedule naming the host, a read sees the running operation (program P5, lazy). -/
theorem test_schedule_host :
    holds (step { busyState with schedule := [.host], events := [.transaction 0x400C00000000#48] })
      (reads 0x00010001#32) = true := by decide

/-! ### Witnesses: states that meet the hypotheses of the statements -/

theorem witness_DecodeInvertsEncode :
    Config.legalSeedCap 1024 = true ∧ (Instr.wrSeed 255#8 0#32).wellFormed 1024 = true := by decide

theorem witness_EncodeInvertsDecode :
    Config.legalSeedCap 32 = true ∧
      decode 32 (.td48 0x411C00000000#48) = .instr (.rd (.seed 7#8)) := by decide

theorem witness_OpcodeTableRowsDecode :
    Config.legalSeedCap 32 = true ∧ 4 * (7#8).toNat < 32 := by decide

theorem witness_StepRunsTheDecodedInstruction_transaction :
    Config.legalSeedCap idleState.seedCap = true ∧
    nextAgent { idleState with events := [.transaction 0xC00800000000#48] } = .host ∧
    decode idleState.seedCap (.td48 0xC00800000000#48) = .instr .nop := by decide

theorem witness_StepRunsTheDecodedInstruction_access :
    Config.legalSeedCap idleState.seedCap = true ∧
    nextAgent { idleState with events := [.access (.write 0x40010008 .four 2#32)] } = .host ∧
    busWord idleState.base (.write 0x40010008 .four 2#32) = some 0xC00800000002#48 ∧
    decode idleState.seedCap (.td48 0xC00800000002#48) = .instr .hash := by decide

theorem witness_StepRunsTheDecodedInstruction_query :
    Config.legalSeedCap idleState.seedCap = true ∧
    nextAgent { idleState with events := [.query 0#42] } = .host ∧
    decode idleState.seedCap (.dq42 0#42) = .instr .dqHost := by decide

theorem witness_StepRunsTheDecodedInstruction_fetch :
    decode idleState.seedCap (tableFrame 48 0xC00800000002) = .instr .hash := by decide

theorem witness_TheScheduleNamesTheAgent :
    Config.legalSeedCap idleState.seedCap = true ∧
    { idleState with schedule := [.controller] }.schedule = .controller :: [] ∧
    { idleState with schedule := [.controller] }.phase = .idle ∧
    { idleState with schedule := [.host] }.schedule = .host :: [] ∧
    { idleState with schedule := [.host] }.events = [] ∧
    busyState.schedule = [] ∧ busyState.phase ≠ .idle ∧
    idleState.schedule = [] ∧ idleState.phase = .idle := by decide

theorem witness_ResetValues : 1024 < 4096 ∧ 1023 < 1024 := by decide

theorem witness_HardwareResetFromAnyState :
    Config.legalSeedCap busyState.seedCap = true ∧
    nextAgent { busyState with schedule := [.host], events := [.reset] } = .host ∧
    { busyState with schedule := [.host], events := [.reset] }.events = .reset :: [] := by
  decide

theorem witness_TransactionsPerformTheAccessFunction :
    Config.legalSeedCap idleState.seedCap = true ∧ 2#2 ≠ 3#2 ∧ (false = false → 0#32 = 0#32) ∧
    (true = false → 5#32 = 0#32) := by decide

/-- The descriptors of V-E2 rows 1, 3, 5, 9 and 11, one for each cause. -/
def causeDescriptor : BusCause → Descriptor
  | .misaligned => ⟨false, 0#2, false, 0x011#12, 0#32⟩
  | .unmapped => ⟨false, 2#2, false, 0x200#12, 0#32⟩
  | .readOnly => ⟨true, 2#2, false, 0x00C#12, 0#32⟩
  | .illegalValue => ⟨true, 2#2, false, 0x020#12, 257#32⟩
  | .busy => ⟨true, 2#2, false, 0x010#12, 0#32⟩

theorem witness_FirstCauseThatAppliesIsRecorded (c : BusCause) :
    descriptorError (causeDescriptor c) = none ∧ causeApplies c (causeDescriptor c) busyState ∧
    ∀ b : BusCause, (causeCode b).toNat < (causeCode c).toNat →
      ¬ causeApplies b (causeDescriptor c) busyState := by
  cases c <;> refine ⟨by decide, ?_, ?_⟩ <;>
    first
    | (intro b hb; cases b <;> first | exact absurd hb (by decide) |
        (simp only [causeApplies]; decide))
    | (simp only [causeApplies]; decide)

theorem witness_FirstCauseThatAppliesIsRecorded_none :
    descriptorError ⟨true, 2#2, false, 0x030#12, 1#32⟩ = none ∧
    ∀ c : BusCause, ¬ causeApplies c ⟨true, 2#2, false, 0x030#12, 1#32⟩ busyState := by
  refine ⟨by decide, fun c => ?_⟩
  cases c <;> simp only [causeApplies] <;> decide

theorem witness_BusErrorsArePrecise :
    Config.legalSeedCap idleState.seedCap = true ∧
    holds (transact 0xC01100000000#48 idleState)
      (fun t => t.busResp == some (.write .slverr)) = true := by decide

theorem witness_BusyRejectsOperandsAndCommands :
    busyState.status.busy = true ∧ (256#32).toNat < 2 ^ 11 ∧ (256#32).toNat ≤ busyState.seedCap ∧
    4 * (63#8).toNat < busyState.seedCap := by decide

theorem witness_ReadsReturnTheRegister :
    4 * (63#8).toNat < idleState.seedCap ∧ idleState.seedCap ≤ 4 * (64#8).toNat := by
  decide

theorem witness_RegisterWordsFieldByField : idleState.seedCap < 4096 := by decide

theorem witness_OperandWritesSetTheirHalf :
    idleState.status.busy = false ∧ busyState.status.busy = true := by decide

theorem witness_TwoWordWritesSetTheOperand : idleState.status.busy = false := by decide

theorem witness_SeedLenWriteSetsTheLength :
    idleState.seedCap < 2 ^ 11 ∧ idleState.status.busy = false ∧
    (256#32).toNat ≤ idleState.seedCap ∧ idleState.seedCap < (257#32).toNat ∧
    busyState.seedCap < 2 ^ 11 ∧ busyState.status.busy = true ∧
    (256#32).toNat ≤ busyState.seedCap := by decide

theorem witness_SeedWriteSetsFourBytes :
    Config.legalSeedCap idleState.seedCap = true ∧ idleState.seed.length = idleState.seedCap ∧
    4 * (63#8).toNat < idleState.seedCap ∧ idleState.status.busy = false ∧
    Config.legalSeedCap busyState.seedCap = true ∧ busyState.seed.length = busyState.seedCap ∧
    busyState.status.busy = true ∧ idleState.seedCap ≤ 4 * (64#8).toNat := by decide +kernel

/-- One value for each clause: 0, 1, and the two ends of the values that are not legal. -/
theorem witness_InterruptRegisterWrites :
    (0#32).toNat = 0 ∧ (1#32).toNat = 1 ∧ 2 ≤ (2#32).toNat ∧ 2 ≤ (0xFFFFFFFF#32).toNat := by decide

theorem witness_RegisterWritesAreIdempotent :
    holds (exec (.wrSeed 63#8 1#32) idleState) (fun _ => true) = true := by decide

theorem witness_PermuteAcceptance :
    (withOperands 1099511627775#64 1099511627776#64).status.busy = false ∧
    (withOperands 1099511627775#64 1099511627776#64).index.toNat <
      (withOperands 1099511627775#64 1099511627776#64).listSize.toNat ∧
    (withOperands 1099511627775#64 1099511627776#64).listSize.toNat ≤ 2 ^ 40 := by decide

theorem witness_PermutePreconditionFailures :
    (withOperands 3#64 3#64).status.busy = false ∧
    (withOperands 3#64 3#64).listSize.toNat ≤ (withOperands 3#64 3#64).index.toNat ∧
    (withOperands 0#64 1099511627777#64).index.toNat <
      (withOperands 0#64 1099511627777#64).listSize.toNat ∧
    2 ^ 40 < (withOperands 0#64 1099511627777#64).listSize.toNat := by decide

theorem witness_HashAcceptance :
    idleState.status.busy = false ∧ busyState.status.busy = true := by decide

theorem witness_PivotStepComputesSteps1To3 :
    let s := inRound .pivot 89#7 1099511627775#64 1099511627776#64
    s.phase = .pivot ∧ s.round.toNat ≤ 89 ∧ s.widx.toNat < s.n.toNat ∧ s.n.toNat ≤ 2 ^ 40 := by
  decide

theorem witness_SourceStepComputesSteps4To7 :
    (inRound .source 88#7 0#64 1#64).phase = .source ∧
    (inRound .source 88#7 0#64 1#64).round.toNat < 89 ∧
    (inRound .source 89#7 0#64 1#64).phase = .source ∧
    (inRound .source 89#7 0#64 1#64).round.toNat = 89 := by decide

theorem witness_SeedBytesAboveTheLengthAffectNothing :
    (seed0 ++ List.replicate 224 1#8).take busyState.seedLen.toNat =
      busyState.seed.take busyState.seedLen.toNat ∧
    seed0 ++ List.replicate 224 1#8 ≠ busyState.seed ∧
    holds (controllerStep busyState) (fun _ => true) = true := by decide

theorem witness_FlipIsTheNonNegativeRemainder :
    (1099511627776#41).toNat ≤ 2 ^ 40 ∧ (0#40).toNat < (1099511627776#41).toNat ∧
    (1099511627775#40).toNat < (1099511627776#41).toNat := by decide

theorem witness_RoundsAreInvolutionsAndPermuteInverts : 1099511627775 < 2 ^ 40 := by decide

theorem witness_PermuteIsABijection : 0 < 1 := by decide

theorem witness_ResetIsLegal : Config.legalSeedCap 32 = true := by decide

/-! Legal states: of a PERMUTE of one element every working index is 0, whatever the hash. -/

theorem permuteRounds_one (seed : List Byte) (k : Nat) : permuteRounds seed 1 k 0 = 0 := by
  have := permuteRounds_lt seed 1 k 0 (by decide)
  omega

theorem registers_legal (s : State) (hcap : s.seedCap = 256) (hs : s.seed.length = 256)
    (hl : s.seedLen.toNat ≤ 256) (hb : s.busErr = BusErr.zero) (hr : s.resultHi = 0#32)
    (hst : StatusLegal s.status) : RegistersLegal s where
  cap := by rw [hcap]; decide
  seedLength := by rw [hs, hcap]
  seedLen := by rw [hcap]; exact hl
  status := hst
  busErr := by rw [hb]; constructor <;> simp [BusErr.zero]
  resultHi := by rw [hr]; decide

theorem status_legal_zero : StatusLegal Status.zero := by
  constructor <;> simp [Status.zero]

theorem status_legal_running (r : BitVec 7) (h : r.toNat ≤ 90) :
    StatusLegal { acceptedStatus opPermute true with round := r } := by
  constructor <;> simp [acceptedStatus, opPermute]
  exact h

theorem status_legal_hash : StatusLegal (acceptedStatus opHash true) := by
  constructor <;> simp [acceptedStatus, opHash]

theorem idle_seed : idleState.seed.length = 256 := by decide +kernel

theorem idle_legal (index listSize : BitVec 64) : EngineInv (withOperands index listSize) where
  registers := registers_legal _ rfl idle_seed (by show (32#11).toNat ≤ 256; decide) rfl rfl
    status_legal_zero
  controller := by
    constructor <;> simp [withOperands, idleState, State.afterReset, Status.zero]

theorem hash_legal : EngineInv inHash where
  registers := registers_legal _ rfl idle_seed (by show (32#11).toNat ≤ 256; decide) rfl rfl
    status_legal_hash
  controller := by
    constructor <;> simp [inHash, idleState, State.afterReset, acceptedStatus]

theorem source_legal (r : BitVec 7) (h : r.toNat < 90) :
    EngineInv (inRound .source r 0#64 1#64) where
  registers := registers_legal _ rfl idle_seed (by show (32#11).toNat ≤ 256; decide) rfl rfl
    (status_legal_running r (by omega))
  controller := by
    have hl : (inRound .source r 0#64 1#64).listSize.toNat = 1 := by
      show (withOperands 0#64 1#64).listSize.toNat = 1
      decide
    have hi : (inRound .source r 0#64 1#64).index.toNat = 0 := by
      show (withOperands 0#64 1#64).index.toNat = 0
      decide
    have hw : (inRound .source r 0#64 1#64).widx.toNat = 0 := by
      show ((0#64).setWidth 40 : BitVec 40).toNat = 0
      decide
    refine ⟨by simp [inRound, acceptedStatus], by simp [inRound], fun _ => ?_, fun _ => ?_⟩
    · refine ⟨rfl, h, rfl, ?_, ?_, ?_, ?_⟩
      · rw [hl]
        show ((1#64).setWidth 41 : BitVec 41).toNat = 1
        decide
      · rw [hl]; decide
      · rw [hl, hi]; decide
      · rw [hl, hi, hw, permuteRounds_one]
    · refine ⟨?_, ?_, ?_⟩
      · rw [hl, refPivot, Nat.mod_one]; rfl
      · rw [hl, hw, refFlip_eq 1 _ 0 (by show (0#40).toNat < 1; decide) (by decide)]
        rfl
      · rw [hw]; rfl

theorem witness_MessagesFitSeventeenBlocks :
    RegistersLegal { withOperands 0#64 1#64 with seedLen := 256#11 } ∧
    (List.replicate 1029 0#8).length ≤ 1029 :=
  ⟨registers_legal _ rfl idle_seed (by show (256#11).toNat ≤ 256; decide) rfl rfl
      status_legal_zero,
    by decide +kernel⟩

theorem witness_HashCompletion : inHash.phase = .hash ∧ EngineInv inHash := ⟨rfl, hash_legal⟩

theorem witness_CompletionDeliversThePermutedIndex :
    EngineInv (inRound .source 89#7 0#64 1#64) ∧
    completesPermute (inRound .source 89#7 0#64 1#64) :=
  ⟨source_legal 89#7 (by decide), by decide, rfl, rfl⟩

/-- An idle legal engine to which one PERMUTE arrives. -/
def arrivingPermute (index listSize : BitVec 64) : State :=
  { withOperands index listSize with events := [.transaction 0xC00800000001#48] }

theorem arriving_legal (index listSize : BitVec 64) :
    EngineInv (arrivingPermute index listSize) := by
  obtain ⟨⟨a1, a2, a3, a4, a5, a6⟩, -⟩ := idle_legal index listSize
  refine ⟨⟨a1, a2, a3, a4, a5, a6⟩, ?_⟩
  constructor <;>
    simp [arrivingPermute, withOperands, idleState, State.afterReset, Status.zero]

theorem witness_PermuteTakes180Steps :
    let s := arrivingPermute 1099511627775#64 1099511627776#64
    EngineInv s ∧ s.phase = .idle ∧ s.schedule = [] ∧
    s.events = [.transaction 0xC00800000001#48] ∧ s.index.toNat < s.listSize.toNat ∧
    s.listSize.toNat ≤ 2 ^ 40 :=
  ⟨arriving_legal _ _, rfl, rfl, rfl, by decide, by decide⟩

theorem witness_ResultDependsOnlyOnTheOperands :
    let s := arrivingPermute 0#64 3#64
    let s' := { s with irqEn := true, digest := Vector.replicate 8 5#32 }
    EngineInv s ∧ EngineInv s' ∧ s.phase = .idle ∧ s'.phase = .idle ∧ s.schedule = [] ∧
    s'.schedule = [] ∧ s.events = [.transaction 0xC00800000001#48] ∧
    s'.events = [.transaction 0xC00800000001#48] ∧ s.index = s'.index ∧
    s.listSize = s'.listSize ∧ s.seedStr = s'.seedStr ∧ s.index.toNat < s.listSize.toNat ∧
    s.listSize.toNat ≤ 2 ^ 40 := by
  refine ⟨arriving_legal _ _, ?_, rfl, rfl, rfl, rfl, rfl, rfl, rfl, rfl, rfl, by decide,
    by decide⟩
  obtain ⟨⟨a1, a2, a3, a4, a5, a6⟩, -⟩ := arriving_legal 0#64 3#64
  refine ⟨⟨a1, a2, a3, a4, a5, a6⟩, ?_⟩
  constructor <;>
    simp [arrivingPermute, withOperands, idleState, State.afterReset, Status.zero]

theorem witness_EveryStepKeepsTheEngineLegal :
    EngineInv (inRound .source 0#7 0#64 1#64) ∧
    holds (step (inRound .source 0#7 0#64 1#64)) (fun _ => true) = true :=
  ⟨source_legal 0#7 (by decide), by decide⟩

theorem witness_LegalStatesNeverFault : EngineInv inHash := hash_legal

theorem witness_EveryOperationEnds :
    EngineInv inHash ∧ inHash.status.busy = true ∧
    (∀ w, Event.transaction w ∈ inHash.events → ∀ why,
      decode inHash.seedCap (.td48 w) ≠ .invalid why) ∧
    (∀ w, Event.query w ∈ inHash.events → ∀ why, decode inHash.seedCap (.dq42 w) ≠ .invalid why) :=
  ⟨hash_legal, rfl, fun _ h => absurd h List.not_mem_nil, fun _ h => absurd h List.not_mem_nil⟩

theorem witness_BusyEndsOnlyByCompletionOrReset :
    inHash.status.busy = true ∧ holds (step inHash) (fun t => !t.status.busy) = true := by
  decide

theorem witness_OperandsAreFixedWhileBusy :
    busyState.status.busy = true ∧ holds (step busyState) (fun t => t.status.busy) = true := by
  decide

theorem witness_PendingIsSetAtThreeEvents :
    inHash.irqPend = false ∧ holds (step inHash) (fun t => t.irqPend) = true ∧
    { idleState with irqPend := true }.irqPend = true ∧
    holds (step { idleState with irqPend := true, events := [.transaction 0xC03000000001#48] })
      (fun t => !t.irqPend) = true := by decide

theorem witness_ResultChangesOnlyAtCompletion :
    holds (step { idleState with resultLo := 1#32, events := [.transaction 0xC00800000003#48] })
      (fun t => t.result != 1#64) = true := by decide

theorem witness_DigestChangesOnlyAtHashCompletion :
    holds (step inHash) (fun t => t.digest != inHash.digest) = true := by decide +kernel

/-- The two ends of the window, and the addresses on either side of it. -/
theorem witness_BusAddressesSelectTheWindow :
    Config.legalSeedCap idleState.seedCap = true ∧
    nextAgent { idleState with events := [.access (.read 0x40010000 .four)] } = .host ∧
    (idleState.base ≤ 0x40010000 ∧ 0x40010FFF < idleState.base + 4096) ∧
    ¬ idleState.base ≤ 0x4000FFFF ∧ ¬ 0x40011000 < idleState.base + 4096 := by decide

theorem witness_ParametersAreFixed :
    idleState.base % 4096 = 0 ∧
    holds (step { busyState with schedule := [.host], events := [.reset] }) (fun _ => true) =
      true := by decide

/-- A next state, a refusal, and (in a state no run reaches) a fault. -/
theorem witness_PlacementChangesNothing :
    holds (step { idleState with events := [.access (.read 0x40010000 .four)] }) (fun _ => true) =
      true ∧
    (match step { idleState with seedCap := 0 } with | .refused _ => true | _ => false) = true ∧
    (match step (inRound .pivot 90#7 0#64 1#64) with | .fault _ => true | _ => false) = true := by
  decide

end Sys2Proof.Tests
end

section
/-! SUPPORT. One step, by agent and by arrival: an equation for each case of the choice between the
agents and of the performing of an arrival (spec/00_scope.md R15, spec/20_memory.md R72, R83, R85). -/

namespace Sys2Proof.Machine

/-! ### The next agent -/

theorem nextAgent_of_schedule_cons (s : State) (a : Agent) (rest : List Agent)
    (h : s.schedule = a :: rest) : nextAgent s = a := by simp only [nextAgent, h]

theorem nextAgent_of_idle (s : State) (h : s.schedule = []) (hp : s.phase = .idle) :
    nextAgent s = .host := by simp only [nextAgent, h, if_pos hp]

theorem nextAgent_of_running (s : State) (h : s.schedule = []) (hp : s.phase ≠ .idle) :
    nextAgent s = .controller := by simp only [nextAgent, h, if_neg hp]

/-! ### The step of a well-formed engine -/

/-- A well-formed engine steps by its next agent, which takes its place off the schedule (R15). -/
theorem step_of_nextAgent (s : State) (a : Agent) (hcap : Config.legalSeedCap s.seedCap = true)
    (ha : nextAgent s = a) : step s = agentStep a { s with schedule := s.schedule.tail } := by
  rw [step, if_pos hcap, ha]

/-- An ill-formed engine has no step (I15). -/
theorem step_of_illFormed (s : State) (hcap : ¬ Config.legalSeedCap s.seedCap = true) :
    step s = .refused .illFormedEngine := by
  rw [step, if_neg hcap]

theorem step_of_schedule_cons (s : State) (a : Agent) (rest : List Agent)
    (hcap : Config.legalSeedCap s.seedCap = true) (h : s.schedule = a :: rest) :
    step s = agentStep a { s with schedule := rest } := by
  rw [step_of_nextAgent s a hcap (nextAgent_of_schedule_cons s a rest h), h, List.tail_cons]

/-- Past the schedule's end the step leaves the schedule empty. -/
theorem step_of_schedule_nil (s : State) (a : Agent) (hcap : Config.legalSeedCap s.seedCap = true)
    (h : s.schedule = []) (ha : nextAgent s = a) : step s = agentStep a s := by
  have hs : { s with schedule := s.schedule.tail } = s := by rw [h, List.tail_nil, ← h]
  rw [step_of_nextAgent s a hcap ha, hs]

theorem controllerStep_of_idle (s : State) (h : s.phase = .idle) : controllerStep s = .next s := by
  simp only [controllerStep, h]

theorem hostStep_of_events_nil (s : State) (h : s.events = []) : hostStep s = .next s := by
  simp only [hostStep, h]

theorem hostStep_of_events_cons (s : State) (e : Event) (rest : List Event)
    (h : s.events = e :: rest) : hostStep s = performEvent e { s with events := rest } := by
  simp only [hostStep, h]

/-- A host with an arrival performs it, with the arrival taken off and the schedule advanced (R85). -/
theorem step_of_arrival (s : State) (e : Event) (rest : List Event)
    (hcap : Config.legalSeedCap s.seedCap = true) (ha : nextAgent s = .host)
    (he : s.events = e :: rest) :
    step s = performEvent e { s with events := rest, schedule := s.schedule.tail } :=
  (step_of_nextAgent s .host hcap ha).trans (hostStep_of_events_cons _ e rest he)

/-! ### The performing of an arrival -/

theorem runDecoded_of_instr (d : Decoded) (i : Instr) (s : State) (h : d = .instr i) :
    runDecoded d s = exec i s := by rw [h, runDecoded]

/-- A frame as an event is performed as what it decodes to. -/
theorem performEvent_frameEvent (f : Frame) (s : State) :
    performEvent (frameEvent f) s = runDecoded (decode s.seedCap f) s := by cases f <;> rfl

theorem performEvent_access_of_word (a : BusAccess) (w : BitVec 48) (s : State)
    (h : busWord s.base a = some w) :
    performEvent (.access a) s = runDecoded (decode s.seedCap (.td48 w)) s := by
  simp only [performEvent, h]

theorem performEvent_access_of_none (a : BusAccess) (s : State) (h : busWord s.base a = none) :
    performEvent (.access a) s = .next s := by
  simp only [performEvent, h]

/-- The step after `withFetchWord` performs the placed frame on the state itself: the placed arrival
and the placed entry of the schedule are both taken off. -/
theorem step_withFetchWord (s : State) (nbits w : Nat)
    (hcap : Config.legalSeedCap s.seedCap = true) :
    step (s.withFetchWord nbits w) = runDecoded (decode s.seedCap (tableFrame nbits w)) s :=
  (step_of_arrival (s.withFetchWord nbits w) _ _ hcap rfl rfl).trans
    (performEvent_frameEvent (tableFrame nbits w) s)

/-! ### The statements about the choice of a step -/

/-- Settles O8: each clause is the equation of the step for one shape of the schedule. -/
theorem theScheduleNamesTheAgent : Obligations.TheScheduleNamesTheAgent := by
  intro s rest hcap
  refine ⟨fun h => ?_, fun h => ?_, fun h hp => ?_, fun h hp => ?_⟩
  · have hstep := step_of_schedule_cons s .controller rest hcap h
    exact ⟨hstep, fun hp => hstep.trans (controllerStep_of_idle _ hp)⟩
  · have hstep := step_of_schedule_cons s .host rest hcap h
    exact ⟨hstep, fun he => hstep.trans (hostStep_of_events_nil _ he)⟩
  · exact step_of_schedule_nil s .controller hcap h (nextAgent_of_running s h hp)
  · exact step_of_schedule_nil s .host hcap h (nextAgent_of_idle s h hp)

/-- Settles O7: the step performs the arrival, and the arrival is performed as the instruction its
frame decodes to. -/
theorem stepRunsTheDecodedInstruction : Obligations.StepRunsTheDecodedInstruction := by
  intro s i hcap
  refine ⟨fun w rest he ha hd => ?_, fun a w rest he ha hw hd => ?_, fun w rest he ha hd => ?_,
    fun nbits w hd => ?_⟩
  · exact (step_of_arrival s _ rest hcap ha he).trans (runDecoded_of_instr _ i _ hd)
  · have harrived := performEvent_access_of_word a w
      { s with events := rest, schedule := s.schedule.tail } hw
    exact (step_of_arrival s _ rest hcap ha he).trans
      (harrived.trans (runDecoded_of_instr _ i _ hd))
  · exact (step_of_arrival s _ rest hcap ha he).trans (runDecoded_of_instr _ i _ hd)
  · exact (step_withFetchWord s nbits w hcap).trans (runDecoded_of_instr _ i s hd)

end Sys2Proof.Machine
end

section
/-! SUPPORT. The parameters of the engine through a step: no effect of a step writes `BASE` or
`SEED_CAP` (spec/00_scope.md R7). -/

namespace Sys2Proof.Machine

/-- `t` is a state of the same engine as `s`: the two parameters of R7 agree. -/
def SameParameters (s t : State) : Prop := t.base = s.base ∧ t.seedCap = s.seedCap

theorem operandWrite_sameParameters (s t : State) (h : OperandWrite s t) : SameParameters s t := by
  cases h <;> exact ⟨rfl, rfl⟩

theorem execEffect_sameParameters (s t : State) (i : Instr) (h : ExecEffect s i t) :
    SameParameters s t := by
  cases h with
  | written i u hu hb => exact operandWrite_sameParameters s u hu
  | _ => exact ⟨rfl, rfl⟩

theorem controllerEffect_sameParameters (s t : State) (h : ControllerEffect s t) :
    SameParameters s t := by
  cases h <;> exact ⟨rfl, rfl⟩

theorem eventEffect_sameParameters (s t : State) (e : Event) (h : EventEffect s e t) :
    SameParameters s t := by
  cases h with
  | transaction w i t hd he => exact execEffect_sameParameters s t i he
  | _ => exact ⟨rfl, rfl⟩

theorem stepEffect_sameParameters (s t : State) (h : StepEffect s t) : SameParameters s t := by
  cases h with
  | controller t ha he =>
    exact controllerEffect_sameParameters { s with schedule := s.schedule.tail } t he
  | performs a e rest t ha he hr hx =>
    exact eventEffect_sameParameters { s with schedule := s.schedule.tail, events := rest } t e hx
  | _ => exact ⟨rfl, rfl⟩

/-- Settles O53: the page of an aligned `BASE` is its quotient by the window's size, and every effect
of a step keeps the parameters. -/
theorem parametersAreFixed : Obligations.ParametersAreFixed := by
  refine ⟨fun s => Nat.mul_mod_right 4096 s.basePage, fun base h => ⟨base / 4096, fun _ _ => ?_⟩,
    fun s t h => ?_⟩
  · exact Nat.mul_div_cancel' (Nat.dvd_of_mod_eq_zero h)
  · exact stepEffect_sameParameters s t (step_cases s t h).2

end Sys2Proof.Machine
end

section
/-! SUPPORT. The engine placed elsewhere: moving `BASE` and the accesses still to arrive commutes with
every operation, hence with a step (spec/00_scope.md R7, spec/20_memory.md R83). -/

namespace Sys2Proof.Machine

/-! ### The operations on a moved engine -/

theorem movedBy_base (p : Nat) (s : State) :
    (s.movedBy p).base = s.base + Config.windowBytes * p :=
  Nat.mul_add Config.windowBytes s.basePage p

theorem movedBy_events (p : Nat) (s : State) :
    (s.movedBy p).events = s.events.map (Event.movedBy (Config.windowBytes * p)) := rfl

/-- A register reads the same wherever the engine stands: none of them shows `BASE`. -/
theorem readValue_movedBy (p : Nat) (r : Reg) (s : State) :
    readValue r (s.movedBy p) = readValue r s := by cases r <;> rfl

theorem respond_movedBy (p : Nat) (r : BusResponse) (s : State) :
    respond r (s.movedBy p) = (respond r s).movedBy p := rfl

theorem okWrite_movedBy (p : Nat) (s : State) : okWrite (s.movedBy p) = (okWrite s).movedBy p := rfl

theorem raiseBusError_movedBy (p : Nat) (c : BusCause) (off : Offset) (w : Bool) (s : State) :
    raiseBusError c off w (s.movedBy p) = (raiseBusError c off w s).movedBy p := rfl

theorem failOpError_movedBy (p : Nat) (e : OpError) (s : State) :
    failOpError e (s.movedBy p) = (failOpError e s).movedBy p := rfl

theorem writeSeedWord_movedBy (p : Nat) (j : BitVec 8) (data : Word) (s : State) :
    writeSeedWord j data (s.movedBy p) = (writeSeedWord j data s).movedBy p := rfl

theorem startPermute_movedBy (p : Nat) (s : State) :
    startPermute (s.movedBy p) = (startPermute s).movedBy p := rfl

theorem answer_movedBy (p : Nat) (m : List Byte) (s : State) :
    answer m (s.movedBy p) = (answer m s).movedBy p := rfl

theorem hardwareReset_movedBy (p : Nat) (s : State) :
    hardwareReset (s.movedBy p) = (hardwareReset s).movedBy p := rfl

theorem clearAllButSeed_movedBy (p : Nat) (s : State) :
    clearAllButSeed (s.movedBy p) = (clearAllButSeed s).movedBy p := rfl

/-- A choice that does not look at the place, between moved states, is the moved choice. -/
theorem ite_movedBy {p : Nat} {c : Prop} {_ : Decidable c} {s s' t t' : State}
    (hs : s' = s.movedBy p) (ht : t' = t.movedBy p) :
    (if c then s' else t') = (if c then s else t).movedBy p := by
  rw [hs, ht]
  exact (apply_ite (State.movedBy p) c s t).symm

theorem unlessBusy_movedBy {p : Nat} {off : Offset} {s t t' : State} (ht : t' = t.movedBy p) :
    unlessBusy off (s.movedBy p) t' = (unlessBusy off s t).movedBy p :=
  ite_movedBy (raiseBusError_movedBy p .busy off true s) ht

/-! ### Outcomes -/

/-- The outcome at the moved engine: a next state is moved, a fault or a refusal is the same. -/
def outcomeMovedBy (p : Nat) : Host.Outcome State Fault Refusal → Host.Outcome State Fault Refusal
  | .next t => .next (t.movedBy p)
  | .fault f => .fault f
  | .refused r => .refused r

theorem next_movedBy {p : Nat} {t t' : State} (h : t' = t.movedBy p) :
    Host.Outcome.next t' = outcomeMovedBy p (.next t) := congrArg Host.Outcome.next h

theorem execRd_movedBy (p : Nat) (r : Reg) (s : State) :
    execRd r (s.movedBy p) = outcomeMovedBy p (execRd r s) := by
  have hread : respond (.read (readValue r (s.movedBy p)) .okay) (s.movedBy p) =
      (respond (.read (readValue r s) .okay) s).movedBy p := by
    rw [readValue_movedBy, respond_movedBy]
  exact next_movedBy (ite_movedBy hread (raiseBusError_movedBy p _ _ _ s))

theorem execPermute_movedBy (p : Nat) (s : State) :
    execPermute (s.movedBy p) = outcomeMovedBy p (execPermute s) := by
  have herr : permuteError (s.movedBy p) = permuteError s := rfl
  refine next_movedBy (unlessBusy_movedBy ?_)
  rw [herr]
  cases permuteError s with
  | none => exact congrArg okWrite (startPermute_movedBy p s)
  | some e => exact failOpError_movedBy p e s

/-- Every instruction has the moved effect at the moved engine. -/
theorem exec_movedBy (p : Nat) (i : Instr) (s : State) :
    exec i (s.movedBy p) = outcomeMovedBy p (exec i s) := by
  cases i with
  | rd r => exact execRd_movedBy p r s
  | wrIndexLo data => exact next_movedBy (unlessBusy_movedBy rfl)
  | wrIndexHi data => exact next_movedBy (unlessBusy_movedBy rfl)
  | wrListSizeLo data => exact next_movedBy (unlessBusy_movedBy rfl)
  | wrListSizeHi data => exact next_movedBy (unlessBusy_movedBy rfl)
  | wrSeedLen data => exact next_movedBy (ite_movedBy (unlessBusy_movedBy rfl) rfl)
  | wrIrqEn data => exact next_movedBy (ite_movedBy rfl rfl)
  | wrIrqStatus data => exact next_movedBy (ite_movedBy rfl rfl)
  | wrSeed j data =>
    have hword := congrArg okWrite (writeSeedWord_movedBy p j data s)
    exact next_movedBy (ite_movedBy (unlessBusy_movedBy hword) (raiseBusError_movedBy p _ _ _ s))
  | nop => exact next_movedBy (okWrite_movedBy p s)
  | permute => exact execPermute_movedBy p s
  | hash => exact next_movedBy (unlessBusy_movedBy rfl)
  | softReset => exact next_movedBy (congrArg okWrite (clearAllButSeed_movedBy p s))
  | dqHost => exact next_movedBy (answer_movedBy p _ s)
  | dqPivot rnd => exact next_movedBy (answer_movedBy p _ s)
  | dqSource rnd blk => exact next_movedBy (answer_movedBy p _ s)

theorem runDecoded_movedBy (p : Nat) (d : Decoded) (s : State) :
    runDecoded d (s.movedBy p) = outcomeMovedBy p (runDecoded d s) := by
  cases d with
  | instr i => exact exec_movedBy p i s
  | busError c off w => exact next_movedBy (raiseBusError_movedBy p c off w s)
  | invalid why => rfl

/-- A moved access reaches the moved engine as the same frame, or not at all: the frame holds the
offset only (R72). -/
theorem busWord_movedBy (p : Nat) (a : BusAccess) (s : State) :
    busWord (s.movedBy p).base (accessMovedBy (Config.windowBytes * p) a) = busWord s.base a := by
  have haddr : (accessMovedBy (Config.windowBytes * p) a).addr =
      a.addr + Config.windowBytes * p := by cases a <;> rfl
  have hfields : busDescriptor (accessMovedBy (Config.windowBytes * p) a) = busDescriptor a := by
    cases a <;> rfl
  rw [busWord, haddr, hfields, movedBy_base, windowOffset_add, busWord]

theorem performEvent_movedBy (p : Nat) (e : Event) (s : State) :
    performEvent (e.movedBy (Config.windowBytes * p)) (s.movedBy p) =
      outcomeMovedBy p (performEvent e s) := by
  cases e with
  | access a =>
    have hw := busWord_movedBy p a s
    cases h : busWord s.base a with
    | none =>
      rw [performEvent_access_of_none a s h]
      exact performEvent_access_of_none _ _ (hw.trans h)
    | some w =>
      rw [performEvent_access_of_word a w s h]
      exact (performEvent_access_of_word _ w _ (hw.trans h)).trans (runDecoded_movedBy p _ s)
  | transaction w => exact runDecoded_movedBy p _ s
  | query w => exact runDecoded_movedBy p _ s
  | reset => exact next_movedBy (hardwareReset_movedBy p s)

/-! ### The agents -/

theorem hostStep_movedBy (p : Nat) (s : State) :
    hostStep (s.movedBy p) = outcomeMovedBy p (hostStep s) := by
  cases he : s.events with
  | nil =>
    rw [hostStep_of_events_nil s he]
    exact hostStep_of_events_nil _ (by rw [movedBy_events, he, List.map_nil])
  | cons e rest =>
    rw [hostStep_of_events_cons s e rest he]
    exact (hostStep_of_events_cons _ _ _ (by rw [movedBy_events, he, List.map_cons])).trans
      (performEvent_movedBy p e { s with events := rest })

theorem hashStep_movedBy (p : Nat) (s : State) :
    hashStep (s.movedBy p) = (hashStep s).movedBy p := rfl

theorem pivotStep_movedBy (p : Nat) (s : State) :
    pivotStep (s.movedBy p) = (pivotStep s).movedBy p := rfl

theorem sourceStep_movedBy (p : Nat) (s : State) :
    sourceStep (s.movedBy p) = (sourceStep s).movedBy p := ite_movedBy rfl rfl

/-- A step guarded by the count of rounds faults at both places or at neither. -/
theorem guarded_movedBy {p : Nat} {c : Prop} {_ : Decidable c} {f : Fault} {t t' : State}
    (h : t' = t.movedBy p) :
    (if c then Host.Outcome.next t' else .fault f : Host.Outcome State Fault Refusal) =
      outcomeMovedBy p (if c then .next t else .fault f) := by
  split
  · exact next_movedBy h
  · rfl

theorem controllerStep_movedBy (p : Nat) (s : State) :
    controllerStep (s.movedBy p) = outcomeMovedBy p (controllerStep s) := by
  have hphase : (s.movedBy p).phase = s.phase := rfl
  simp only [controllerStep, hphase]
  cases s.phase with
  | idle => rfl
  | hash => exact next_movedBy (hashStep_movedBy p s)
  | pivot => exact guarded_movedBy (pivotStep_movedBy p s)
  | source => exact guarded_movedBy (sourceStep_movedBy p s)

/-- A step of the moved engine has the moved outcome (R7, R264). -/
theorem step_movedBy (p : Nat) (s : State) : step (s.movedBy p) = outcomeMovedBy p (step s) := by
  by_cases hcap : Config.legalSeedCap s.seedCap = true
  · have hstep := step_of_nextAgent s (nextAgent s) hcap rfl
    have hmoved := step_of_nextAgent (s.movedBy p) (nextAgent s) hcap rfl
    rw [hstep, hmoved]
    cases nextAgent s with
    | host => exact hostStep_movedBy p { s with schedule := s.schedule.tail }
    | controller => exact controllerStep_movedBy p { s with schedule := s.schedule.tail }
  · rw [step_of_illFormed s hcap]
    exact step_of_illFormed (s.movedBy p) hcap

/-- Settles O54: the three clauses are the three outcomes of `step_movedBy`. -/
theorem placementChangesNothing : Obligations.PlacementChangesNothing := by
  intro p s
  refine ⟨fun t h => ?_, fun f h => ?_, fun r h => ?_⟩ <;> rw [step_movedBy, h] <;> rfl

end Sys2Proof.Machine
end

section
/-! SUPPORT. Decoding first and running the instruction (spec/30_encoding.md R105) has the effect of
the access function, check by check (spec/42_host_access.md R200, R208): the two are compared on each
branch of the decoder, and there register by register. -/

namespace Sys2Proof.Machine

/-! ### The decoder, branch by branch -/

theorem decodeDescriptor_misaligned (cap : Nat) (d : Descriptor) (he : descriptorError d = none)
    (ha : ¬ descriptorAligned d = true) :
    decodeDescriptor cap d = .busError .misaligned d.off d.w := by
  simp only [decodeDescriptor, he, if_neg ha]

theorem decodeDescriptor_unmapped (cap : Nat) (d : Descriptor) (he : descriptorError d = none)
    (ha : descriptorAligned d = true) (hr : regOfOffset cap d.off = none) :
    decodeDescriptor cap d = .busError .unmapped d.off d.w := by
  simp only [decodeDescriptor, he, if_pos ha, hr]

theorem decodeDescriptor_read (cap : Nat) (d : Descriptor) (r : Reg)
    (he : descriptorError d = none) (ha : descriptorAligned d = true)
    (hr : regOfOffset cap d.off = some r) (hw : d.w = false) :
    decodeDescriptor cap d = .instr (.rd r) := by
  simp [decodeDescriptor, he, ha, hr, hw]

theorem decodeDescriptor_write (cap : Nat) (d : Descriptor) (r : Reg)
    (he : descriptorError d = none) (ha : descriptorAligned d = true)
    (hr : regOfOffset cap d.off = some r) (hw : d.w = true) :
    decodeDescriptor cap d = decodeWrite r d.off d.data := by
  simp [decodeDescriptor, he, ha, hr, hw]

/-! ### The offsets -/

theorem regOffset_mod_four (r : Reg) : (regOffset r).toNat % 4 = 0 := by
  have h := congrArg BitVec.toNat (regOffset_aligned r)
  rw [toNat_extract] at h
  simpa using h

/-- `Unmapped(off)` as R35 lists it. -/
theorem accessUnmapped_iff (cap off : Nat) :
    accessUnmapped cap off = true ↔
      (0x038 ≤ off ∧ off ≤ 0x03F) ∨ (0x060 ≤ off ∧ off ≤ 0x0FF) ∨ 0x100 + cap ≤ off := by
  simp [accessUnmapped, or_assoc]

theorem accessUnmapped_of_low (cap off : Nat) (h : off < 0x038) :
    accessUnmapped cap off = false := by
  rw [Bool.eq_false_iff, Ne, accessUnmapped_iff]
  omega

/-- `Unmapped` is false at a mapped register. -/
theorem accessUnmapped_regOffset (cap : Nat) (r : Reg) (h : r.mapped cap = true) :
    accessUnmapped cap (regOffset r).toNat = false := by
  cases r with
  | digest k =>
    have hk := k.isLt
    rw [digest_offset_toNat, Bool.eq_false_iff, Ne, accessUnmapped_iff]
    omega
  | seed j =>
    have hm := (seedMapped_iff cap j).mp h
    rw [seed_offset_toNat, Bool.eq_false_iff, Ne, accessUnmapped_iff]
    omega
  | _ => exact accessUnmapped_of_low cap _ (by decide)

/-- An aligned offset at which the decoder finds no register is one that R35 lists. -/
theorem accessUnmapped_of_none (cap : Nat) (off : Offset) (ha : off.toNat % 4 = 0)
    (h : regOfOffset cap off = none) : accessUnmapped cap off.toNat = true := by
  by_cases hlow : 0x038 ≤ off.toNat
  · rw [regOfOffset_high cap off hlow] at h
    rw [accessUnmapped_iff]
    split at h
    · cases h
    · split at h
      · cases h
      · omega
  · obtain ⟨k, hk, rfl⟩ : ∃ k, k < 14 ∧ off = BitVec.ofNat 12 (4 * k) :=
      ⟨off.toNat / 4, by omega, BitVec.eq_of_toNat_eq (by rw [BitVec.toNat_ofNat]; omega)⟩
    interval_cases k <;> cases h

/-- The read-only offsets as R200 lists them. -/
theorem accessReadOnly_iff (off : Nat) :
    accessReadOnly off = true ↔
      off = 0x000 ∨ off = 0x004 ∨ off = 0x00C ∨ off = 0x024 ∨ off = 0x028 ∨ off = 0x034 ∨
        (0x040 ≤ off ∧ off ≤ 0x05C) := by
  simp [accessReadOnly, or_assoc]

theorem accessReadOnly_digest (k : Fin 8) :
    accessReadOnly (regOffset (.digest k)).toNat = true := by
  have hk := k.isLt
  rw [digest_offset_toNat, accessReadOnly_iff]
  omega

theorem accessReadOnly_seed (j : BitVec 8) :
    accessReadOnly (regOffset (.seed j)).toNat = false := by
  rw [seed_offset_toNat, Bool.eq_false_iff, Ne, accessReadOnly_iff]
  omega

/-- `Protected(off)` as R200 lists it. -/
theorem accessProtected_iff (cap off : Nat) :
    accessProtected cap off = true ↔
      off = 0x010 ∨ off = 0x014 ∨ off = 0x018 ∨ off = 0x01C ∨ off = 0x020 ∨
        (0x100 ≤ off ∧ off < 0x100 + cap) := by
  simp [accessProtected, or_assoc]

theorem accessProtected_seed (cap : Nat) (j : BitVec 8) (h : 4 * j.toNat < cap) :
    accessProtected cap (regOffset (.seed j)).toNat = true := by
  rw [seed_offset_toNat, accessProtected_iff]
  omega

/-! ### The access function, branch by branch -/

theorem access_misaligned (off : Offset) (size : Nat) (w : Bool) (data : Word) (s : State)
    (h : size ≠ 4 ∨ off.toNat % 4 ≠ 0) :
    access off size w data s = .next (raiseBusError .misaligned off w s) := by
  rw [access, if_pos h]

theorem access_unmapped (off : Offset) (w : Bool) (data : Word) (s : State)
    (ha : off.toNat % 4 = 0) (h : accessUnmapped s.seedCap off.toNat = true) :
    access off 4 w data s = .next (raiseBusError .unmapped off w s) := by
  rw [access, if_neg (by omega), if_pos h]

theorem access_read (r : Reg) (data : Word) (s : State) (h : r.mapped s.seedCap = true) :
    access (regOffset r) 4 false data s =
      .next (respond (.read (accessReadValue (regOffset r).toNat s) .okay) s) := by
  have ha := regOffset_mod_four r
  rw [access, if_neg (by omega), accessUnmapped_regOffset _ r h]
  rfl

/-- A write to a mapped register comes to the checks of R200 after `Unmapped`. -/
theorem access_write (r : Reg) (data : Word) (s : State) (h : r.mapped s.seedCap = true) :
    access (regOffset r) 4 true data s =
      if (regOffset r).toNat = 0x008 then accessCommand data s
      else if accessReadOnly (regOffset r).toNat then
        .next (raiseBusError .readOnly (regOffset r) true s)
      else if accessLegal s.seedCap (regOffset r).toNat data = false then
        .next (raiseBusError .illegalValue (regOffset r) true s)
      else if accessProtected s.seedCap (regOffset r).toNat ∧ s.status.busy = true then
        .next (raiseBusError .busy (regOffset r) true s)
      else .next (respond (.write .okay) (accessWrite (regOffset r).toNat data s)) := by
  have ha := regOffset_mod_four r
  rw [access, if_neg (by omega), accessUnmapped_regOffset _ r h]
  rfl

/-! ### Reads -/

theorem flagWord_eq_ite (b : Bool) : flagWord b = if b then 1#32 else 0#32 := by
  cases b <;> rfl

/-- The value of R201 above the named registers, which stand below 0x038. -/
theorem accessReadValue_high (off : Nat) (s : State) (h : 0x038 ≤ off) :
    accessReadValue off s =
      if 0x040 ≤ off ∧ off < 0x060 then s.digest.toList.getD ((off - 0x040) / 4) 0#32
      else if 0x100 ≤ off then
        ofLanes (readSeed s (off - 0x100)) (readSeed s (off - 0x100 + 1))
          (readSeed s (off - 0x100 + 2)) (readSeed s (off - 0x100 + 3))
      else 0#32 := by
  rw [accessReadValue]
  iterate 13 rw [if_neg (by omega)]

theorem accessReadValue_digest (k : Fin 8) (s : State) :
    accessReadValue (regOffset (.digest k)).toNat s = s.digest[k] := by
  have hk := k.isLt
  have hword : (0x040 + 4 * k.val - 0x040) / 4 = k.val := by omega
  rw [digest_offset_toNat, accessReadValue_high _ s (by omega), if_pos (by omega), hword]
  simp

theorem accessReadValue_seed (j : BitVec 8) (s : State) :
    accessReadValue (regOffset (.seed j)).toNat s = seedWord s j := by
  rw [seed_offset_toNat, accessReadValue_high _ s (by omega), if_neg (by omega),
    if_pos (by omega), Nat.add_sub_cancel_left, seedWord]

/-- The value of R201 is the register's, for every mapped register of a well-formed engine. -/
theorem accessReadValue_regOffset (r : Reg) (s : State)
    (hcap : Config.legalSeedCap s.seedCap = true) :
    accessReadValue (regOffset r).toNat s = readValue r s := by
  cases r with
  | params =>
    obtain ⟨-, -, hle⟩ := (legalSeedCap_iff s.seedCap).mp hcap
    apply BitVec.eq_of_toNat_eq
    have hvalue : accessReadValue (regOffset .params).toNat s =
        BitVec.ofNat 32 (40 * 2 ^ 20 + s.seedCap * 2 ^ 8 + 90) := rfl
    rw [hvalue, readValue, paramsWord_toNat _ (by omega), BitVec.toNat_ofNat]
    omega
  | seedLen =>
    apply BitVec.eq_of_toNat_eq
    simp [accessReadValue, readValue, regOffset]
  | irqEn => exact (flagWord_eq_ite s.irqEn).symm
  | irqStatus => exact (flagWord_eq_ite s.irqPend).symm
  | digest k => exact accessReadValue_digest k s
  | seed j => exact accessReadValue_seed j s
  | _ => rfl

theorem execRd_eq_access (r : Reg) (data : Word) (s : State)
    (hcap : Config.legalSeedCap s.seedCap = true) (h : r.mapped s.seedCap = true) :
    execRd r s = access (regOffset r) 4 false data s := by
  rw [access_read r data s h, accessReadValue_regOffset r s hcap, execRd, if_pos h]

/-! ### Commands -/

/-- `Command(data)` of R208 is the command the decoder reads, or the rejection of its value. -/
theorem runDecoded_ctrl_eq_accessCommand (data : Word) (s : State) :
    runDecoded (decodeWrite .ctrl (regOffset .ctrl) data) s = accessCommand data s := by
  by_cases h4 : data.toNat < 4
  · obtain ⟨k, hk, rfl⟩ : ∃ k, k < 4 ∧ data = BitVec.ofNat 32 k :=
      ⟨data.toNat, h4, (BitVec.ofNat_toNat 32 data).symm⟩
    interval_cases k <;> rfl
  · have hne : ∀ k : Nat, k < 4 → data ≠ BitVec.ofNat 32 k := by
      rintro k hk rfl
      rw [BitVec.toNat_ofNat] at h4
      omega
    have hnone : decodeCommand data = none := by
      rw [decodeCommand_eq, if_neg (hne 0 (by decide)), if_neg (hne 1 (by decide)),
        if_neg (hne 2 (by decide)), if_neg (hne 3 (by decide))]
    rw [accessCommand, if_pos (by omega)]
    simp only [decodeWrite, hnone]
    rfl

/-! ### Writes -/

theorem accessLegal_seedLen (cap : Nat) (data : Word) :
    accessLegal cap 0x020 data = legalSeedLen cap data := by
  rw [Bool.eq_iff_iff, legalSeedLen_iff]
  simp [accessLegal]

theorem accessLegal_irqEn (cap : Nat) (data : Word) :
    accessLegal cap 0x02C data = legalFlag data := by
  rw [Bool.eq_iff_iff, legalFlag_iff]
  simp [accessLegal]

theorem accessLegal_irqStatus (cap : Nat) (data : Word) :
    accessLegal cap 0x030 data = legalFlag data := by
  rw [Bool.eq_iff_iff, legalFlag_iff]
  simp [accessLegal]

theorem accessLegal_seed (cap : Nat) (j : BitVec 8) (data : Word) :
    accessLegal cap (regOffset (.seed j)).toNat data = true := by
  rw [seed_offset_toNat, accessLegal, if_neg (by omega), if_neg (by omega)]

/-- A write to a read-only register is READ_ONLY (R200). -/
theorem access_write_readOnly (r : Reg) (data : Word) (s : State) (h : r.mapped s.seedCap = true)
    (hctrl : (regOffset r).toNat ≠ 0x008) (hro : accessReadOnly (regOffset r).toNat = true) :
    access (regOffset r) 4 true data s = .next (raiseBusError .readOnly (regOffset r) true s) := by
  rw [access_write r data s h, if_neg hctrl, if_pos hro]

/-- A write of an illegal value is ILLEGAL_VALUE, whether busy or not (R200). -/
theorem access_write_illegal (r : Reg) (data : Word) (s : State) (h : r.mapped s.seedCap = true)
    (hctrl : (regOffset r).toNat ≠ 0x008) (hro : accessReadOnly (regOffset r).toNat = false)
    (hl : accessLegal s.seedCap (regOffset r).toNat data = false) :
    access (regOffset r) 4 true data s =
      .next (raiseBusError .illegalValue (regOffset r) true s) := by
  rw [access_write r data s h, if_neg hctrl, hro, if_neg Bool.false_ne_true, if_pos hl]

/-- A legal write to a protected register is BUSY or done (R200). -/
theorem access_write_protected (r : Reg) (data : Word) (s : State)
    (h : r.mapped s.seedCap = true)
    (hctrl : (regOffset r).toNat ≠ 0x008) (hro : accessReadOnly (regOffset r).toNat = false)
    (hl : accessLegal s.seedCap (regOffset r).toNat data = true)
    (hp : accessProtected s.seedCap (regOffset r).toNat = true) :
    access (regOffset r) 4 true data s =
      .next (unlessBusy (regOffset r) s (okWrite (accessWrite (regOffset r).toNat data s))) := by
  rw [access_write r data s h, if_neg hctrl, hro, if_neg Bool.false_ne_true, hl,
    if_neg Bool.false_ne_true.symm, hp]
  cases hb : s.status.busy with
  | false => rw [unlessBusy_free _ _ _ hb]; rfl
  | true => rw [unlessBusy_busy _ _ _ hb]; rfl

/-- A legal write to a register that is not protected is done, busy or not (R200). -/
theorem access_write_unprotected (r : Reg) (data : Word) (s : State)
    (h : r.mapped s.seedCap = true)
    (hctrl : (regOffset r).toNat ≠ 0x008) (hro : accessReadOnly (regOffset r).toNat = false)
    (hl : accessLegal s.seedCap (regOffset r).toNat data = true)
    (hp : accessProtected s.seedCap (regOffset r).toNat = false) :
    access (regOffset r) 4 true data s =
      .next (okWrite (accessWrite (regOffset r).toNat data s)) := by
  rw [access_write r data s h, if_neg hctrl, hro, if_neg Bool.false_ne_true, hl, hp]
  rfl

/-! The writes whose value or whose offset the access function takes in another form. -/

theorem accessWrite_seedLen (data : Word) (s : State) :
    accessWrite 0x020 data s = { s with seedLen := data.extractLsb' 0 11 } := by
  have hlen : BitVec.ofNat 11 data.toNat = data.extractLsb' 0 11 := by
    apply BitVec.eq_of_toNat_eq
    rw [BitVec.toNat_ofNat, toNat_extract, pow_zero, Nat.div_one]
  rw [← hlen]
  rfl

/-- The bit of a legal flag value says whether the value is 1 (R211, R212). -/
theorem getLsbD_zero_of_legalFlag (data : Word) (h : legalFlag data = true) :
    data.getLsbD 0 = decide (data = 1#32) := by
  have hlt := (legalFlag_iff data).mp h
  obtain ⟨k, hk, rfl⟩ : ∃ k, k < 2 ∧ data = BitVec.ofNat 32 k :=
    ⟨data.toNat, hlt, (BitVec.ofNat_toNat 32 data).symm⟩
  interval_cases k <;> rfl

theorem accessWrite_irqEn (data : Word) (s : State) (h : legalFlag data = true) :
    accessWrite 0x02C data s = { s with irqEn := data.getLsbD 0 } := by
  rw [getLsbD_zero_of_legalFlag data h]
  rfl

theorem accessWrite_irqStatus (data : Word) (s : State) (h : legalFlag data = true) :
    accessWrite 0x030 data s =
      { s with irqPend := if data.getLsbD 0 then false else s.irqPend } := by
  have hack : (if data.getLsbD 0 then false else s.irqPend) =
      (s.irqPend && decide (data ≠ 1#32)) := by
    rw [getLsbD_zero_of_legalFlag data h]
    by_cases h1 : data = 1#32 <;> simp [h1]
  rw [hack]
  rfl

theorem accessWrite_seed (j : BitVec 8) (data : Word) (s : State) :
    accessWrite (regOffset (.seed j)).toNat data s = writeSeedWord j data s := by
  rw [seed_offset_toNat, accessWrite]
  iterate 7 rw [if_neg (by omega)]
  rw [Nat.add_sub_cancel_left, writeSeedWord]

theorem execWrSeedLen_eq_access (data : Word) (s : State) :
    execWrSeedLen data s = access (regOffset .seedLen) 4 true data s := by
  have hlegal : accessLegal s.seedCap (regOffset .seedLen).toNat data = _ :=
    accessLegal_seedLen s.seedCap data
  cases hv : legalSeedLen s.seedCap data with
  | false =>
    rw [access_write_illegal .seedLen data s rfl (by decide) rfl (hlegal.trans hv), execWrSeedLen,
      hv]
    rfl
  | true =>
    rw [access_write_protected .seedLen data s rfl (by decide) rfl (hlegal.trans hv) rfl,
      execWrSeedLen, if_pos hv, ← accessWrite_seedLen]
    rfl

theorem execWrIrqEn_eq_access (data : Word) (s : State) :
    execWrIrqEn data s = access (regOffset .irqEn) 4 true data s := by
  have hlegal : accessLegal s.seedCap (regOffset .irqEn).toNat data = _ :=
    accessLegal_irqEn s.seedCap data
  cases hv : legalFlag data with
  | false =>
    rw [access_write_illegal .irqEn data s rfl (by decide) rfl (hlegal.trans hv), execWrIrqEn, hv]
    rfl
  | true =>
    rw [access_write_unprotected .irqEn data s rfl (by decide) rfl (hlegal.trans hv) rfl,
      execWrIrqEn, if_pos hv, ← accessWrite_irqEn data s hv]
    rfl

theorem execWrIrqStatus_eq_access (data : Word) (s : State) :
    execWrIrqStatus data s = access (regOffset .irqStatus) 4 true data s := by
  have hlegal : accessLegal s.seedCap (regOffset .irqStatus).toNat data = _ :=
    accessLegal_irqStatus s.seedCap data
  cases hv : legalFlag data with
  | false =>
    rw [access_write_illegal .irqStatus data s rfl (by decide) rfl (hlegal.trans hv),
      execWrIrqStatus, hv]
    rfl
  | true =>
    rw [access_write_unprotected .irqStatus data s rfl (by decide) rfl (hlegal.trans hv) rfl,
      execWrIrqStatus, if_pos hv, ← accessWrite_irqStatus data s hv]
    rfl

theorem execWrSeed_eq_access (j : BitVec 8) (data : Word) (s : State)
    (h : seedMapped s.seedCap j = true) :
    execWrSeed j data s = access (regOffset (.seed j)) 4 true data s := by
  have hctrl : (regOffset (.seed j)).toNat ≠ 0x008 := by rw [seed_offset_toNat]; omega
  rw [access_write_protected (.seed j) data s h hctrl (accessReadOnly_seed j)
    (accessLegal_seed s.seedCap j data)
    (accessProtected_seed s.seedCap j ((seedMapped_iff s.seedCap j).mp h)),
    accessWrite_seed, execWrSeed, if_pos h]

/-- A write to a mapped register, read by lines 4 to 6 of R105, is the access function's (R200). -/
theorem runDecoded_decodeWrite (r : Reg) (data : Word) (s : State)
    (h : r.mapped s.seedCap = true) :
    runDecoded (decodeWrite r (regOffset r) data) s = access (regOffset r) 4 true data s := by
  cases r with
  | ctrl => rw [access_write .ctrl data s h, runDecoded_ctrl_eq_accessCommand]; rfl
  | indexLo => exact (access_write_protected .indexLo data s h (by decide) rfl rfl rfl).symm
  | indexHi => exact (access_write_protected .indexHi data s h (by decide) rfl rfl rfl).symm
  | listSizeLo => exact (access_write_protected .listSizeLo data s h (by decide) rfl rfl rfl).symm
  | listSizeHi => exact (access_write_protected .listSizeHi data s h (by decide) rfl rfl rfl).symm
  | seedLen => exact execWrSeedLen_eq_access data s
  | irqEn => exact execWrIrqEn_eq_access data s
  | irqStatus => exact execWrIrqStatus_eq_access data s
  | seed j => exact execWrSeed_eq_access j data s h
  | digest k =>
    have hctrl : (regOffset (.digest k)).toNat ≠ 0x008 := by rw [digest_offset_toNat]; omega
    exact (access_write_readOnly (.digest k) data s h hctrl (accessReadOnly_digest k)).symm
  | id => exact (access_write_readOnly .id data s h (by decide) rfl).symm
  | params => exact (access_write_readOnly .params data s h (by decide) rfl).symm
  | status => exact (access_write_readOnly .status data s h (by decide) rfl).symm
  | resultLo => exact (access_write_readOnly .resultLo data s h (by decide) rfl).symm
  | resultHi => exact (access_write_readOnly .resultHi data s h (by decide) rfl).symm
  | busErr => exact (access_write_readOnly .busErr data s h (by decide) rfl).symm

/-! ### A descriptor -/

theorem two_pow_size_eq_four_iff (sz : BitVec 2) : 2 ^ sz.toNat = 4 ↔ sz = 2#2 := by
  revert sz
  decide

/-- A descriptor that spells a transaction has the effect of the access function at its fields
(R105, R200). -/
theorem runDecoded_decodeDescriptor (d : Descriptor) (s : State)
    (hcap : Config.legalSeedCap s.seedCap = true) (he : descriptorError d = none) :
    runDecoded (decodeDescriptor s.seedCap d) s =
      access d.off (2 ^ d.sz.toNat) d.w d.data s := by
  by_cases ha : descriptorAligned d = true
  · obtain ⟨hsz, hoff⟩ := (descriptorAligned_iff d).mp ha
    rw [(two_pow_size_eq_four_iff d.sz).mpr hsz]
    cases hr : regOfOffset s.seedCap d.off with
    | none =>
      rw [decodeDescriptor_unmapped _ d he ha hr]
      exact (access_unmapped d.off d.w d.data s hoff (accessUnmapped_of_none _ _ hoff hr)).symm
    | some r =>
      obtain ⟨hreg, hmapped⟩ := regOfOffset_some s.seedCap d.off r hcap hoff hr
      cases hw : d.w with
      | false =>
        rw [decodeDescriptor_read _ d r he ha hr hw, ← hreg]
        exact execRd_eq_access r d.data s hcap hmapped
      | true =>
        rw [decodeDescriptor_write _ d r he ha hr hw, ← hreg]
        exact runDecoded_decodeWrite r d.data s hmapped
  · rw [decodeDescriptor_misaligned _ d he ha]
    rw [descriptorAligned_iff, ← two_pow_size_eq_four_iff] at ha
    exact (access_misaligned d.off _ d.w d.data s (by omega)).symm

end Sys2Proof.Machine
end

section
/-! SUPPORT. A bus access at its address: in the window it is the access function at `addr − BASE`,
outside it passes (spec/20_memory.md R72, R83). -/

namespace Sys2Proof.Machine

theorem bytes_eq_two_pow_code (size : AccessSize) : 2 ^ size.code.toNat = size.bytes := by
  cases size <;> rfl

/-- An access in the window is the access function at its offset (R72, R200). -/
theorem performEvent_access_in (a : BusAccess) (off : Offset) (s : State)
    (hcap : Config.legalSeedCap s.seedCap = true) (h : windowOffset s.base a.addr = some off) :
    performEvent (.access a) s =
      access off (2 ^ (busDescriptor a off).sz.toNat) (busDescriptor a off).w
        (busDescriptor a off).data s := by
  have hword : busWord s.base a = some (descriptorBits (busDescriptor a off)) := by
    rw [busWord, h, Option.map_some]
  have hoff : (busDescriptor a off).off = off := by cases a <;> rfl
  rw [performEvent_access_of_word a _ s hword, decode, descriptorOfBits_descriptorBits,
    runDecoded_decodeDescriptor _ s hcap (descriptorError_busDescriptor a off), hoff]

/-- An access outside the window never reaches the engine (R83). -/
theorem performEvent_access_out (a : BusAccess) (s : State)
    (h : windowOffset s.base a.addr = none) : performEvent (.access a) s = .next s := by
  apply performEvent_access_of_none
  rw [busWord, h, Option.map_none]

/-- The performing of a bus access, by where its address lies (R72, R83, R200). -/
theorem performEvent_access (a : BusAccess) (s : State)
    (hcap : Config.legalSeedCap s.seedCap = true) :
    performEvent (.access a) s =
      if s.base ≤ a.addr ∧ a.addr < s.base + 4096 then
        access (BitVec.ofNat 12 (a.addr - s.base)) (2 ^ (busDescriptor a 0#12).sz.toNat)
          (busDescriptor a 0#12).w (busDescriptor a 0#12).data s
      else .next s := by
  rcases windowOffset_cases s.base a.addr with ⟨hlo, hhi, hin⟩ | ⟨hout, hnone⟩
  · rw [if_pos ⟨hlo, hhi⟩, performEvent_access_in a _ s hcap hin]
    cases a <;> rfl
  · rw [if_neg (by omega), performEvent_access_out a s hnone]

/-- Settles O52: the step performs the access that arrives, and `performEvent_access` says what that
is. -/
theorem busAddressesSelectTheWindow : Obligations.BusAddressesSelectTheWindow := by
  intro s rest addr size data hcap ha after
  refine ⟨fun he => ?_, fun he => ?_⟩
  · rw [← bytes_eq_two_pow_code]
    exact (step_of_arrival s _ rest hcap ha he).trans
      (performEvent_access (.read addr size) after hcap)
  · rw [← bytes_eq_two_pow_code]
    exact (step_of_arrival s _ rest hcap ha he).trans
      (performEvent_access (.write addr size data) after hcap)

end Sys2Proof.Machine
end

section
/-! SUPPORT. The invariant of the engine through a step: the registers keep legal values, and the
controller stays at a position of spec/10_state.md R52 with the working index of R160. -/

namespace Sys2Proof.Machine

/-! ### Legal values of `STATUS` and `BUSERR` -/

theorem statusLegal_zero : StatusLegal Status.zero := by constructor <;> simp [Status.zero]

/-- `STATUS` at the acceptance of a PERMUTE or a HASH (R140, R163). -/
theorem statusLegal_accepted (op : BitVec 2) (h : op = opPermute ∨ op = opHash) :
    StatusLegal (acceptedStatus op true) := by
  rcases h with rfl | rfl <;> constructor <;> simp [acceptedStatus, opPermute, opHash]

theorem statusLegal_failed (e : OpError) : StatusLegal (failedStatus e) := by
  cases e <;> constructor <;> simp [failedStatus, opErrorCode, opPermute]

/-- A completion sets DONE where BUSY was (R141, R175). -/
theorem statusLegal_completed (t : Status) (h : StatusLegal t) (hb : t.busy = true) :
    StatusLegal (completedStatus t) := by
  obtain ⟨-, herr, hcode⟩ := h.busyClear hb
  have hop : t.op ≠ 0#2 := by
    intro h0
    rw [h.opNone h0] at hb
    cases hb
  exact {
    busyClear := nofun
    errSet := fun he => absurd he (by simp [completedStatus, herr])
    errClear := fun _ => hcode
    hashRound := h.hashRound
    opNone := fun h0 => absurd h0 hop
    opLegal := h.opLegal
    roundBound := h.roundBound }

/-- The round of a PERMUTE advances up to 90 (R172). -/
theorem statusLegal_round (t : Status) (h : StatusLegal t) (hop : t.op = opPermute) (r : BitVec 7)
    (hr : r.toNat ≤ 90) : StatusLegal { t with round := r } :=
  { h with
    hashRound := fun h2 => absurd (hop.symm.trans h2) (by decide)
    opNone := fun h0 => absurd (hop.symm.trans h0) (by decide)
    roundBound := hr }

theorem busErrLegal_zero : BusErrLegal BusErr.zero := by constructor <;> simp [BusErr.zero]

/-- `BUSERR` of a rejected access, a write where only writes raise the cause (R240, R241). -/
theorem busErrLegal_busErrOf (c : BusCause) (off : Offset) (w : Bool)
    (hw : 3 ≤ (causeCode c).toNat → w = true) : BusErrLegal (busErrOf c off w) where
  invalidZero h := by cases h
  causeRange _ := causeCode_range c
  writeCause _ := hw

/-! ### States whose controller stands where it stood -/

/-- `t` agrees with `s` in every register and element the controller's positions speak of. -/
structure SameController (s t : State) : Prop where
  status : t.status = s.status
  phase : t.phase = s.phase
  round : t.round = s.round
  n : t.n = s.n
  widx : t.widx = s.widx
  pivot : t.pivot = s.pivot
  flip : t.flip = s.flip
  pos : t.pos = s.pos
  index : t.index = s.index
  listSize : t.listSize = s.listSize
  seedStr : t.seedStr = s.seedStr

theorem ControllerLegal.of_same {s t : State} (h : ControllerLegal s) (e : SameController s t) :
    ControllerLegal t := by
  obtain ⟨hstatus, hphase, hround, hn, hwidx, hpivot, hflip, hpos, hindex, hlist, hseed⟩ := e
  refine ⟨?_, ?_, fun hp => ?_, fun hp => ?_⟩
  · rw [hstatus, hphase]; exact h.busy
  · rw [hstatus, hphase, hround]; exact h.hash
  · obtain ⟨op, round, statusRound, list, bound, index, widx⟩ := h.permute (hphase ▸ hp)
    constructor <;> simp only [hstatus, hround, hn, hwidx, hindex, hlist, hseed] <;> assumption
  · obtain ⟨pivot, flip, pos⟩ := h.prepared (hphase ▸ hp)
    constructor <;> simp only [hround, hwidx, hpivot, hflip, hpos, hlist, hseed] <;> assumption

/-- An idle controller is at a position of R52 whatever its elements hold (I11). -/
theorem controllerLegal_of_idle (t : State) (hp : t.phase = .idle) (hb : t.status.busy = false) :
    ControllerLegal t := by
  constructor <;> simp [hp, hb]

theorem phase_idle_of_not_busy (s : State) (h : ControllerLegal s) (hb : s.status.busy = false) :
    s.phase = .idle := by
  by_contra hp
  rw [h.busy.mpr hp] at hb
  cases hb

/-- The step of an agent begins with an entry taken off the schedule and an arrival taken off the
events, which are not part of the engine. -/
theorem engineInv_of_arrivals (s : State) (es : List Event) (sch : List Agent) (h : EngineInv s) :
    EngineInv { s with events := es, schedule := sch } where
  registers := { h.registers with }
  controller := h.controller.of_same ⟨rfl, rfl, rfl, rfl, rfl, rfl, rfl, rfl, rfl, rfl, rfl⟩

/-! ### Instructions -/

/-- An operand write keeps the registers legal (R28, R34). -/
theorem operandWrite_registersLegal (s t : State) (h : OperandWrite s t) (hs : RegistersLegal s) :
    RegistersLegal t := by
  cases h with
  | seedLen d hd => exact { hs with seedLen := hd }
  | seed j d => exact { hs with seedLength := (writeSeedWord_length j d s).trans hs.seedLength }
  | _ => exact { hs with }

/-- No operand write touches the controller or `STATUS`. -/
theorem operandWrite_phase_status (s t : State) (h : OperandWrite s t) :
    t.phase = s.phase ∧ t.status = s.status := by
  cases h <;> exact ⟨rfl, rfl⟩

/-- An accepted PERMUTE stands before round 0 with the working index at `INDEX` (R163). -/
theorem permuteRunning_start (s : State) (he : permuteError s = none) :
    PermuteRunning (okWrite (startPermute s)) := by
  obtain ⟨hi, hl⟩ : s.index.toNat < s.listSize.toNat ∧ s.listSize.toNat ≤ 2 ^ 40 := by
    rcases permuteError_cases s with ⟨-, h⟩ | ⟨-, -, h⟩ | ⟨hi, hl, -⟩
    · rw [he] at h; cases h
    · rw [he] at h; cases h
    · exact ⟨hi, hl⟩
  have hn : (s.listSize.setWidth 41).toNat = s.listSize.toNat := by
    rw [BitVec.toNat_setWidth]; omega
  have hw : (s.index.setWidth 40).toNat = s.index.toNat := by
    rw [BitVec.toNat_setWidth]; omega
  exact ⟨rfl, (by decide : (0#7).toNat < 90), rfl, hn, hl, hi, hw⟩

/-- Every instruction keeps the engine legal. -/
theorem execEffect_engineInv (s t : State) (i : Instr) (h : ExecEffect s i t) (hs : EngineInv s) :
    EngineInv t := by
  obtain ⟨hr, hc⟩ := hs
  cases h with
  | rejected i c off w hw =>
    exact ⟨{ hr with busErr := busErrLegal_busErrOf c off w hw },
      hc.of_same ⟨rfl, rfl, rfl, rfl, rfl, rfl, rfl, rfl, rfl, rfl, rfl⟩⟩
  | written i u hu hb =>
    obtain ⟨hphase, hstatus⟩ := operandWrite_phase_status s u hu
    exact ⟨{ operandWrite_registersLegal s u hu hr with },
      controllerLegal_of_idle _ (hphase.trans (phase_idle_of_not_busy s hc hb))
        ((congrArg Status.busy hstatus).trans hb)⟩
  | softReset =>
    exact ⟨⟨hr.cap, hr.seedLength, Nat.zero_le _, statusLegal_zero, busErrLegal_zero,
        (by decide : (0#32).toNat < 2 ^ 8)⟩,
      controllerLegal_of_idle _ rfl rfl⟩
  | permuteFails e hb he =>
    exact ⟨{ hr with status := statusLegal_failed e },
      controllerLegal_of_idle _ (phase_idle_of_not_busy s hc hb) rfl⟩
  | permuteStarts hb he =>
    exact ⟨{ hr with status := statusLegal_accepted opPermute (.inl rfl) },
      { busy := by simp [acceptedStatus, startPermute]
        hash := nofun
        permute := fun _ => permuteRunning_start s he
        prepared := nofun }⟩
  | hashStarts hb =>
    exact ⟨{ hr with status := statusLegal_accepted opHash (.inr rfl) },
      { busy := by simp [acceptedStatus]
        hash := fun _ => ⟨rfl, rfl⟩
        permute := fun hp => hp.elim nofun nofun
        prepared := nofun }⟩
  | _ =>
    exact ⟨{ hr with }, hc.of_same ⟨rfl, rfl, rfl, rfl, rfl, rfl, rfl, rfl, rfl, rfl, rfl⟩⟩

/-! ### The controller -/

/-- PIVOT keeps what holds of a running PERMUTE: it writes none of it (R170). -/
theorem permuteRunning_pivotStep (s : State) (h : PermuteRunning s) :
    PermuteRunning (pivotStep s) := { h with }

/-- PIVOT leaves the pivot, the flip and the position of R160 (R164 to R166, R170). -/
theorem roundPrepared_pivotStep (s : State) (h : PermuteRunning s) :
    RoundPrepared (pivotStep s) := by
  have hn : 0 < s.n.toNat ∧ s.n.toNat ≤ 2 ^ 40 := by
    rw [h.list]
    exact ⟨by have := h.index; omega, h.bound⟩
  have hw : s.widx.toNat < s.n.toNat := by
    rw [h.widx, h.list]
    exact permuteRounds_lt _ _ _ _ h.index
  have hpivot : (pivotStep s).pivot.toNat =
      digestLow64 (sha256 (pivotMessage s.rnd s)) % s.n.toNat :=
    pivotOf_toNat _ s.n hn.1 hn.2
  have hflip : (pivotStep s).flip.toNat =
      refFlip s.n.toNat (pivotStep s).pivot.toNat s.widx.toNat :=
    flipOf_toNat _ s.widx s.n hn.2 (hpivot ▸ Nat.mod_lt _ hn.1) hw
  refine ⟨?_, ?_, posOf_toNat _ _⟩
  · rw [hpivot, pivotMessage, rnd_toNat, h.list]
    rfl
  · rw [hflip, h.list]
    rfl

/-- The state after steps 4 to 7 of a round and the advance of the round (R171, R172). -/
def afterSource (s : State) : State :=
  advanceRound (answer (sourceMessage s.rnd (blockIndex s.pos) s) s)

/-- The SOURCE step completes the PERMUTE at the count 90 and goes on to the next round below it
(R171, R175). -/
theorem sourceStep_eq (s : State) :
    sourceStep s = if (s.round + 1#7).toNat = Config.rounds then completePermute (afterSource s)
      else { afterSource s with phase := .pivot } := rfl

/-- SOURCE takes the working index through one round of R160 (R167 to R173). -/
theorem afterSource_widx (s : State) (hp : RoundPrepared s) :
    (afterSource s).widx.toNat =
      permuteRound s.seedStr s.listSize.toNat s.round.toNat s.widx.toNat := by
  have hbit : (selectedBit (sha256 (sourceMessage s.rnd (blockIndex s.pos) s)) s.pos).toNat =
      refBit s.seedStr s.round.toNat s.pos.toNat := by
    rw [sourceMessage, rnd_toNat, blockIndex_toNat, selectedBit_eq_refBit]
  have hwidx : (afterSource s).widx =
      swapOf (selectedBit (sha256 (sourceMessage s.rnd (blockIndex s.pos) s)) s.pos)
        s.widx s.flip := rfl
  rw [hwidx, permuteRound_eq, ← hp.pivot, ← hp.flip, ← hp.pos, ← hbit, swapOf]
  cases selectedBit (sha256 (sourceMessage s.rnd (blockIndex s.pos) s)) s.pos <;> rfl

/-- After round `r` the working index is that of R160 after `r + 1` rounds (R160, R171). -/
theorem afterSource_widx_rounds (s : State) (h : PermuteRunning s) (hp : RoundPrepared s) :
    (afterSource s).widx.toNat =
      permuteRounds s.seedStr s.listSize.toNat (s.round.toNat + 1) s.index.toNat := by
  rw [afterSource_widx s hp, h.widx, permuteRounds]

theorem afterSource_statusLegal (s : State) (h : PermuteRunning s) (hs : StatusLegal s.status) :
    StatusLegal (afterSource s).status :=
  statusLegal_round s.status hs h.op _ ((round_succ_toNat s.round h.round).trans_le h.round)

/-- Below round 89 the PERMUTE goes on with the next round (R171). -/
theorem permuteRunning_nextRound (s : State) (h : PermuteRunning s) (hp : RoundPrepared s)
    (hr : s.round.toNat < 89) : PermuteRunning { afterSource s with phase := .pivot } := by
  have hround : (s.round + 1#7).toNat = s.round.toNat + 1 := round_succ_toNat _ h.round
  refine { h with round := ?_, statusRound := rfl, widx := ?_ }
  · exact hround.trans_lt (by omega)
  · exact (afterSource_widx_rounds s h hp).trans (by rw [← hround]; rfl)

/-- `RESULT_HI` takes the 8 bits of the working index above 32 (R29, R175). -/
theorem completePermute_resultHi_lt (s : State) : (completePermute s).resultHi.toNat < 2 ^ 8 := by
  rw [completePermute_resultHi, BitVec.toNat_setWidth, toNat_extract]
  omega

/-- Every controller step keeps the engine legal. -/
theorem controllerEffect_engineInv (s t : State) (h : ControllerEffect s t) (hs : EngineInv s) :
    EngineInv t := by
  obtain ⟨hr, hc⟩ := hs
  cases h with
  | idle hp => exact ⟨hr, hc⟩
  | hash hp =>
    have hb : s.status.busy = true := hc.busy.mpr (by simp [hp])
    exact ⟨{ hr with status := statusLegal_completed _ hr.status hb },
      controllerLegal_of_idle _ rfl rfl⟩
  | pivot hp hround =>
    have hrun := hc.permute (.inl hp)
    have hb : s.status.busy = true := hc.busy.mpr (by simp [hp])
    exact ⟨{ hr with },
      { busy := ⟨nofun, fun _ => hb⟩
        hash := nofun
        permute := fun _ => permuteRunning_pivotStep s hrun
        prepared := fun _ => roundPrepared_pivotStep s hrun }⟩
  | source hp hround =>
    have hrun := hc.permute (.inr hp)
    have hb : s.status.busy = true := hc.busy.mpr (by simp [hp])
    exact ⟨{ hr with status := afterSource_statusLegal s hrun hr.status },
      { busy := ⟨nofun, fun _ => hb⟩
        hash := nofun
        permute := fun _ => permuteRunning_nextRound s hrun (hc.prepared hp) hround
        prepared := nofun }⟩
  | complete hp hround =>
    have hrun := hc.permute (.inr hp)
    have hb : s.status.busy = true := hc.busy.mpr (by simp [hp])
    exact ⟨{ hr with
        status := statusLegal_completed _ (afterSource_statusLegal s hrun hr.status) hb
        resultHi := completePermute_resultHi_lt (afterSource s) },
      controllerLegal_of_idle _ rfl rfl⟩

/-! ### A step -/

/-- A hardware reset makes the registers legal and the controller idle (R281). -/
theorem hardwareReset_engineInv (s : State) (hcap : Config.legalSeedCap s.seedCap = true) :
    EngineInv (hardwareReset s) where
  registers := ⟨hcap, drawnSeed_length _ _, Nat.zero_le _, statusLegal_zero, busErrLegal_zero,
    (by decide : (0#32).toNat < 2 ^ 8)⟩
  controller := controllerLegal_of_idle _ rfl rfl

theorem eventEffect_engineInv (s t : State) (e : Event) (h : EventEffect s e t)
    (hs : EngineInv s) : EngineInv t := by
  cases h with
  | reset => exact hardwareReset_engineInv s hs.registers.cap
  | transaction w i t hd he => exact execEffect_engineInv s t i he hs
  | rejected w c off b hd hc => exact execEffect_engineInv s _ .nop (.rejected .nop c off b hc) hs
  | query w m => exact execEffect_engineInv s _ .nop (.answered .nop m) hs

/-- Settles O43: each effect of a step keeps the invariant. -/
theorem everyStepKeepsTheEngineLegal : Obligations.EveryStepKeepsTheEngineLegal := by
  intro s t hs h
  have hafter := fun es => engineInv_of_arrivals s es s.schedule.tail hs
  cases (step_cases s t h).2 with
  | controller t ha he => exact controllerEffect_engineInv _ t he (hafter s.events)
  | nothing ha he => exact hafter s.events
  | passes a rest ha he hr => exact hafter rest
  | performs a e rest t ha he hr hx => exact eventEffect_engineInv _ t e hx (hafter rest)

end Sys2Proof.Machine
end

section
/-! SUPPORT. What a step can do to `BUSY`, `RESULT` and the digest registers: only a completion,
SOFT_RESET and a reset clear or replace them (spec/10_state.md R25, R29, R33). -/

namespace Sys2Proof.Machine

/-- No operation ends between `s` and `t`, and what one delivers stays: a set BUSY, `RESULT` and the
digest registers. -/
structure KeepsOutcome (s t : State) : Prop where
  busy : s.status.busy = true → t.status.busy = true
  result : t.result = s.result
  digest : t.digest = s.digest

/-! ### The word of SOFT_RESET -/

theorem decodeCommand_softReset (data : Word) (h : decodeCommand data = some .softReset) :
    data = 3#32 := by
  rw [decodeCommand_eq] at h
  repeat' split at h
  all_goals simp_all

/-- Only a write to `CTRL` is read as SOFT_RESET, with data 3 (R101, R105). -/
theorem decodeWrite_softReset (r : Reg) (off : Offset) (data : Word)
    (h : decodeWrite r off data = .instr .softReset) : r = .ctrl ∧ data = 3#32 := by
  cases r with
  | ctrl =>
    cases hcmd : decodeCommand data with
    | none => simp [decodeWrite, hcmd] at h
    | some i =>
      obtain rfl : i = .softReset := by simpa [decodeWrite, hcmd] using h
      exact ⟨rfl, decodeCommand_softReset data hcmd⟩
  | _ => simp [decodeWrite] at h

/-- One transaction word is SOFT_RESET (R110). -/
theorem decode_softReset (cap : Nat) (w : BitVec 48) (hcap : Config.legalSeedCap cap = true)
    (h : decode cap (.td48 w) = .instr .softReset) : w = 0xC00800000003#48 := by
  obtain ⟨herr, haligned, r, hreg, ⟨hw, hdec⟩ | ⟨-, hrd⟩⟩ := decodeDescriptor_instr _ _ _ h
  · obtain ⟨rfl, hdata⟩ := decodeWrite_softReset r _ _ hdec
    obtain ⟨hsz, hmod⟩ := (descriptorAligned_iff _).mp haligned
    obtain ⟨-, hrsv, -⟩ := descriptorError_none _ herr
    obtain ⟨hoff, -⟩ := regOfOffset_some cap _ _ hcap hmod hreg
    have hfields : descriptorOfBits w = ⟨true, 2#2, false, 0x008#12, 3#32⟩ :=
      Descriptor.ext' hw hsz hrsv hoff.symm hdata
    rw [← descriptorBits_descriptorOfBits w, hfields]
    rfl
  · cases hrd

/-! ### Each effect -/

theorem operandWrite_keepsOutcome (s t : State) (h : OperandWrite s t) : KeepsOutcome s t := by
  cases h <;> exact { busy := id, result := rfl, digest := rfl }

/-- No instruction but SOFT_RESET ends an operation or writes what one delivers (R25, R29, R33). -/
theorem execEffect_outcome (s t : State) (i : Instr) (h : ExecEffect s i t) :
    KeepsOutcome s t ∨ i = .softReset := by
  cases h with
  | softReset => exact .inr rfl
  | written i u hu hb =>
    obtain ⟨hbusy, hresult, hdigest⟩ := operandWrite_keepsOutcome s u hu
    exact .inl ⟨hbusy, hresult, hdigest⟩
  | permuteFails e hb he => exact .inl ⟨fun h => absurd (hb.symm.trans h) nofun, rfl, rfl⟩
  | permuteStarts hb he => exact .inl ⟨fun _ => rfl, rfl, rfl⟩
  | hashStarts hb => exact .inl ⟨fun _ => rfl, rfl, rfl⟩
  | _ => exact .inl ⟨id, rfl, rfl⟩

theorem eventEffect_outcome (s t : State) (e : Event) (h : EventEffect s e t)
    (hcap : Config.legalSeedCap s.seedCap = true) :
    KeepsOutcome s t ∨ e = .transaction 0xC00800000003#48 ∨ e = .reset := by
  cases h with
  | reset => exact .inr (.inr rfl)
  | transaction w i t hd he =>
    rcases execEffect_outcome s t i he with hkeep | rfl
    · exact .inl hkeep
    · exact .inr (.inl (congrArg Event.transaction (decode_softReset _ w hcap hd)))
  | _ => exact .inl ⟨id, rfl, rfl⟩

/-- A controller step ends an operation only where it completes it: a PERMUTE with `RESULT`, a HASH
with the digest (R141, R175). -/
theorem controllerEffect_outcome (s t : State) (h : ControllerEffect s t) :
    KeepsOutcome s t ∨ (s.phase = .source ∧ s.round = 89#7 ∧ t.digest = s.digest) ∨
      (s.phase = .hash ∧ t.result = s.result) := by
  cases h with
  | hash hp => exact .inr (.inr ⟨hp, rfl⟩)
  | complete hp hr => exact .inr (.inl ⟨hp, BitVec.eq_of_toNat_eq hr, rfl⟩)
  | _ => exact .inl ⟨id, rfl, rfl⟩

/-! ### A step -/

/-- A step ends no operation and keeps what one delivers, or it is a completion, SOFT_RESET or a
reset. -/
theorem step_outcome (s t : State) (h : step s = .next t) :
    KeepsOutcome s t ∨ (completesPermute s ∧ t.digest = s.digest) ∨
      (completesHash s ∧ t.result = s.result) ∨
      performsNext (.transaction 0xC00800000003#48) s ∨ performsNext .reset s := by
  obtain ⟨hcap, heffect⟩ := step_cases s t h
  cases heffect with
  | controller t ha he =>
    rcases controllerEffect_outcome _ t he with ⟨hb, hr, hd⟩ | ⟨hp, hr, hd⟩ | ⟨hp, hr⟩
    · exact .inl ⟨hb, hr, hd⟩
    · exact .inr (.inl ⟨⟨ha, hp, hr⟩, hd⟩)
    · exact .inr (.inr (.inl ⟨⟨ha, hp⟩, hr⟩))
  | nothing ha he => exact .inl ⟨id, rfl, rfl⟩
  | passes a rest ha he hr => exact .inl ⟨id, rfl, rfl⟩
  | performs a e rest t ha he hr hx =>
    have hnext : performsNext e s := ⟨ha, a, by rw [he, List.head?_cons], hr⟩
    rcases eventEffect_outcome _ t e hx hcap with ⟨hb, hr', hd⟩ | rfl | rfl
    · exact .inl ⟨hb, hr', hd⟩
    · exact .inr (.inr (.inr (.inl hnext)))
    · exact .inr (.inr (.inr (.inr hnext)))

/-- Settles O46: a step that keeps the outcome keeps a set BUSY. -/
theorem busyEndsOnlyByCompletionOrReset : Obligations.BusyEndsOnlyByCompletionOrReset := by
  intro s t h hb ht
  rcases step_outcome s t h with hkeep | ⟨hc, -⟩ | ⟨hc, -⟩ | hreset
  · rw [hkeep.busy hb] at ht; cases ht
  · exact .inl hc
  · exact .inr (.inl hc)
  · exact .inr (.inr hreset)

/-- Settles O49: a HASH completion keeps `RESULT`, and so does a step that keeps the outcome. -/
theorem resultChangesOnlyAtCompletion : Obligations.ResultChangesOnlyAtCompletion := by
  intro s t h hne
  rcases step_outcome s t h with hkeep | ⟨hc, -⟩ | ⟨-, hr⟩ | hreset
  · exact absurd hkeep.result hne
  · exact .inl hc
  · exact absurd hr hne
  · exact .inr hreset

/-- Settles O50: a PERMUTE completion keeps the digest, as does a step that keeps the outcome. -/
theorem digestChangesOnlyAtHashCompletion : Obligations.DigestChangesOnlyAtHashCompletion := by
  intro s t h hne
  rcases step_outcome s t h with hkeep | ⟨-, hd⟩ | ⟨hc, -⟩ | hreset
  · exact absurd hkeep.digest hne
  · exact absurd hd hne
  · exact .inl hc
  · exact .inr hreset

end Sys2Proof.Machine
end

section
/-! SUPPORT. The registers as numbers (spec/10_state.md R21 to R34). -/

namespace Sys2Proof.Machine

/-- Settles O17: the number of each register word, field by field. -/
theorem registerWordsFieldByField : Obligations.RegisterWordsFieldByField := by
  intro s
  have hlen : (s.seedLen.setWidth 32).toNat = s.seedLen.toNat :=
    BitVec.toNat_setWidth_of_le (by decide)
  exact ⟨rfl, paramsWord_toNat s.seedCap, rfl, status_word_toNat s.status, (index_toNat s).symm,
    (listSize_toNat s).symm, hlen, (result_toNat s).symm, flagWord_toNat s.irqEn,
    flagWord_toNat s.irqPend, busErr_word_toNat s.busErr, fun _ => rfl,
    fun _ => ofLanes_toNat _ _ _ _⟩

end Sys2Proof.Machine
end

section
/-! SUPPORT. The controller's step by its position, as an equation, and the seed bytes it does not
read (spec/10_state.md R34, spec/41_permute.md R170, R171). -/

namespace Sys2Proof.Machine

/-! ### The controller's step by its position (R141, R170, R171) -/

theorem controllerStep_of_hash (s : State) (h : s.phase = .hash) :
    controllerStep s = .next (hashStep s) := by simp only [controllerStep, h]

theorem controllerStep_of_pivot (s : State) (h : s.phase = .pivot) (hr : s.round.toNat < 90) :
    controllerStep s = .next (pivotStep s) := by
  simp only [controllerStep, h]
  exact if_pos hr

theorem controllerStep_of_source (s : State) (h : s.phase = .source) (hr : s.round.toNat < 90) :
    controllerStep s = .next (sourceStep s) := by
  simp only [controllerStep, h]
  exact if_pos hr

/-- Above round 89 no controller step of a PERMUTE is enabled (R170, R171). -/
theorem controllerStep_outOfRounds (s : State) (h : s.phase = .pivot ∨ s.phase = .source)
    (hr : ¬ s.round.toNat < 90) : controllerStep s = .fault .controllerOutOfRounds := by
  rcases h with h | h <;> simp only [controllerStep, h] <;> exact if_neg hr

/-- A PERMUTE step that is enabled is of a round below 90. -/
theorem round_lt_of_controllerStep (s t : State) (hp : s.phase = .pivot ∨ s.phase = .source)
    (h : controllerStep s = .next t) : s.round.toNat < 90 := by
  by_contra hr
  rw [controllerStep_outOfRounds s hp hr] at h
  cases h

/-! ### Another seed buffer -/

/-- The engine with another seed buffer. -/
def State.withSeed (buffer : List Byte) (s : State) : State := { s with seed := buffer }

/-- Another buffer with the same first `SEED_LEN` bytes spells the same `SEEDSTR`, on which every
query message is built (R134). -/
theorem withSeed_seedStr (s : State) (buffer : List Byte)
    (h : buffer.take s.seedLen.toNat = s.seed.take s.seedLen.toNat) :
    (s.withSeed buffer).seedStr = s.seedStr := h

theorem hashStep_withSeed (s : State) (buffer : List Byte)
    (h : (s.withSeed buffer).seedStr = s.seedStr) :
    hashStep (s.withSeed buffer) = (hashStep s).withSeed buffer := by
  rw [hashStep, hostMessage, h]
  rfl

theorem pivotStep_withSeed (s : State) (buffer : List Byte)
    (h : (s.withSeed buffer).seedStr = s.seedStr) :
    pivotStep (s.withSeed buffer) = (pivotStep s).withSeed buffer := by
  rw [pivotStep, pivotMessage, h]
  rfl

theorem sourceStep_withSeed (s : State) (buffer : List Byte)
    (h : (s.withSeed buffer).seedStr = s.seedStr) :
    sourceStep (s.withSeed buffer) = (sourceStep s).withSeed buffer := by
  have hafter : afterSource (s.withSeed buffer) = (afterSource s).withSeed buffer := by
    rw [afterSource, sourceMessage, h]
    rfl
  have hround : (s.withSeed buffer).round = s.round := rfl
  rw [sourceStep_eq, sourceStep_eq, hafter, hround]
  split <;> rfl

/-- Settles O36: a controller step reads the buffer through `SEEDSTR` alone and writes none. -/
theorem seedBytesAboveTheLengthAffectNothing :
    Obligations.SeedBytesAboveTheLengthAffectNothing := by
  intro s t buffer htake h
  have hseed := withSeed_seedStr s buffer htake
  change controllerStep (s.withSeed buffer) = .next (t.withSeed buffer)
  cases hp : s.phase with
  | idle =>
    rw [controllerStep_of_idle s hp] at h
    cases h
    exact controllerStep_of_idle _ hp
  | hash =>
    rw [controllerStep_of_hash s hp] at h
    cases h
    rw [controllerStep_of_hash (s.withSeed buffer) hp, hashStep_withSeed s buffer hseed]
  | pivot =>
    have hr := round_lt_of_controllerStep s t (.inl hp) h
    rw [controllerStep_of_pivot s hp hr] at h
    cases h
    rw [controllerStep_of_pivot (s.withSeed buffer) hp hr, pivotStep_withSeed s buffer hseed]
  | source =>
    have hr := round_lt_of_controllerStep s t (.inr hp) h
    rw [controllerStep_of_source s hp hr] at h
    cases h
    rw [controllerStep_of_source (s.withSeed buffer) hp hr, sourceStep_withSeed s buffer hseed]

end Sys2Proof.Machine
end

section
/-! SUPPORT. The run of one PERMUTE on the empty schedule, from its acceptance to its completion,
and what it leaves in `RESULT` and `STATUS` (spec/41_permute.md R163 to R175, log entry 4). -/

namespace Sys2Proof.Machine

/-! ### Acceptance -/

/-- The transaction word of PERMUTE decodes to it, whatever `SEED_CAP` (R110). -/
theorem decode_permute_word (cap : Nat) :
    decode cap (.td48 0xC00800000001#48) = .instr .permute :=
  decode_writeFrame cap .ctrl 1#32 rfl

theorem permuteError_of_valid (s : State) (hi : s.index.toNat < s.listSize.toNat)
    (hl : s.listSize.toNat ≤ 2 ^ 40) : permuteError s = none := by
  rcases permuteError_cases s with ⟨h, -⟩ | ⟨-, h, -⟩ | ⟨-, -, h⟩
  · omega
  · omega
  · exact h

/-- A PERMUTE whose checks pass is accepted (R163). -/
theorem exec_permute_starts (s : State) (hb : s.status.busy = false) (he : permuteError s = none) :
    exec .permute s = .next (okWrite (startPermute s)) := by
  rw [exec, execPermute, unlessBusy_free _ _ _ hb, he]

/-- A legal idle engine on the empty schedule to which one valid PERMUTE arrives. -/
structure AwaitsPermute (s : State) : Prop where
  legal : EngineInv s
  phase : s.phase = .idle
  schedule : s.schedule = []
  events : s.events = [.transaction 0xC00800000001#48]
  index : s.index.toNat < s.listSize.toNat
  bound : s.listSize.toNat ≤ 2 ^ 40

/-- `t` runs the PERMUTE that `s` accepted: it stands at phase `p` of round `r` (R52, R172). -/
structure RunsPermute (s : State) (r : Nat) (p : Phase) (t : State) : Prop where
  legal : EngineInv t
  schedule : t.schedule = []
  phase : t.phase = p
  round : t.round.toNat = r
  status : t.status = { acceptedStatus opPermute true with round := t.round }
  index : t.index = s.index
  listSize : t.listSize = s.listSize
  seedStr : t.seedStr = s.seedStr

/-- The first step accepts the PERMUTE (R163). -/
theorem step_of_awaitsPermute (s : State) (h : AwaitsPermute s) :
    ∃ t, step s = .next t ∧ RunsPermute s 0 .pivot t := by
  have hb : s.status.busy = false := by
    cases hb : s.status.busy with
    | false => rfl
    | true => exact absurd h.phase (h.legal.controller.busy.mp hb)
  have hstep : step s = .next (okWrite (startPermute
      { s with events := [], schedule := s.schedule.tail })) := by
    refine (step_of_arrival s _ [] h.legal.registers.cap
      (nextAgent_of_idle s h.schedule h.phase) h.events).trans ?_
    rw [performEvent, decode_permute_word, runDecoded]
    exact exec_permute_starts _ hb (permuteError_of_valid s h.index h.bound)
  exact ⟨_, hstep, everyStepKeepsTheEngineLegal s _ h.legal hstep,
    congrArg List.tail h.schedule, rfl, rfl, rfl, rfl, rfl, rfl⟩

/-! ### The rounds -/

section Rounds

variable {s t : State} {r : Nat}

/-- Past the schedule's end a running engine takes the controller's step (R15, log entry 4). -/
theorem step_of_running (h : EngineInv t) (hs : t.schedule = []) (hp : t.phase ≠ .idle) :
    step t = controllerStep t :=
  step_of_schedule_nil t .controller h.registers.cap hs (nextAgent_of_running t hs hp)

theorem RunsPermute.step_pivot (h : RunsPermute s r .pivot t) :
    ∃ u, step t = .next u ∧ RunsPermute s r .source u := by
  have hrun := h.legal.controller.permute (.inl h.phase)
  have hstep : step t = .next (pivotStep t) :=
    (step_of_running h.legal h.schedule (by simp [h.phase])).trans
      (controllerStep_of_pivot t h.phase hrun.round)
  exact ⟨_, hstep, { h with legal := everyStepKeepsTheEngineLegal t _ h.legal hstep, phase := rfl }⟩

theorem RunsPermute.step_source (h : RunsPermute s r .source t) :
    step t = .next (sourceStep t) := by
  have hrun := h.legal.controller.permute (.inr h.phase)
  exact (step_of_running h.legal h.schedule (by simp [h.phase])).trans
    (controllerStep_of_source t h.phase hrun.round)

theorem RunsPermute.step_nextRound (h : RunsPermute s r .source t) (hr : r < 89) :
    ∃ u, step t = .next u ∧ RunsPermute s (r + 1) .pivot u := by
  have hround : (t.round + 1#7).toNat = r + 1 := by
    rw [round_succ_toNat _ (by rw [h.round]; omega), h.round]
  have hstep : step t = .next { afterSource t with phase := .pivot } := by
    rw [h.step_source, sourceStep_eq, hround, Config.rounds, if_neg (by omega)]
  refine ⟨_, hstep, { h with
    legal := everyStepKeepsTheEngineLegal t _ h.legal hstep
    phase := rfl
    round := hround
    status := ?_ }⟩
  exact congrArg (fun st : Status => { st with round := t.round + 1#7 }) h.status

/-- Two steps a round lead from the acceptance to the PIVOT step of round `r`. -/
theorem run_to_round (h : AwaitsPermute s) (hr : r ≤ 89) :
    ∃ t, Host.Core.run Sys2Proof.core (2 * r + 1) s = .next t ∧ RunsPermute s r .pivot t := by
  induction r with
  | zero =>
    obtain ⟨t, hstep, ht⟩ := step_of_awaitsPermute s h
    exact ⟨t, run_next 0 s s t rfl hstep, ht⟩
  | succ r ih =>
    obtain ⟨t, hrun, ht⟩ := ih (by omega)
    obtain ⟨u, hpivot, hu⟩ := ht.step_pivot
    obtain ⟨v, hsource, hv⟩ := hu.step_nextRound (by omega)
    exact ⟨v, run_next _ s u v (run_next _ s t u hrun hpivot) hsource, hv⟩

end Rounds

/-! ### Completion -/

/-- `RESULT` is the working index, extended with zeros (R29, R175). -/
theorem completePermute_result_toNat (s : State) :
    (completePermute s).result.toNat = s.widx.toNat := by
  have := s.widx.isLt
  rw [result_toNat, completePermute_resultLo, completePermute_resultHi, BitVec.toNat_setWidth,
    toNat_extract, toNat_extract]
  omega

/-- The SOURCE step of round 89 delivers the permuted index (R160, R175). -/
theorem RunsPermute.step_complete {s t : State} (h : RunsPermute s 89 .source t) :
    ∃ u, step t = .next u ∧ u.result.toNat = permute s.index.toNat s.listSize.toNat s.seedStr ∧
      u.status = completedStatus { acceptedStatus opPermute true with round := 90#7 } := by
  have hround : t.round = 89#7 := BitVec.eq_of_toNat_eq h.round
  have hstep : step t = .next (completePermute (afterSource t)) := by
    rw [h.step_source, sourceStep_eq, hround]
    rfl
  refine ⟨_, hstep, ?_, ?_⟩
  · rw [completePermute_result_toNat,
      afterSource_widx_rounds t (h.legal.controller.permute (.inr h.phase))
        (h.legal.controller.prepared h.phase), h.round, h.index, h.listSize, h.seedStr]
    rfl
  · have hstatus : (afterSource t).status =
        { acceptedStatus opPermute true with round := t.round + 1#7 } :=
      congrArg (fun st : Status => { st with round := t.round + 1#7 }) h.status
    rw [completePermute_status, hstatus, hround]
    rfl

/-- One accepted PERMUTE takes its acceptance and 180 controller steps (R163, R170 to R175). -/
theorem run_permute (s : State) (h : AwaitsPermute s) :
    ∃ t, Host.Core.run Sys2Proof.core 181 s = .next t ∧
      t.result.toNat = permute s.index.toNat s.listSize.toNat s.seedStr ∧
      t.status = completedStatus { acceptedStatus opPermute true with round := 90#7 } := by
  obtain ⟨t, hrun, ht⟩ := run_to_round (r := 89) h le_rfl
  obtain ⟨u, hpivot, hu⟩ := ht.step_pivot
  obtain ⟨v, hsource, hv⟩ := hu.step_complete
  exact ⟨v, run_next 180 s u v (run_next 179 s t u hrun hpivot) hsource, hv⟩

/-- Settles O35: `RESULT` is R160 of the operands alone, and `STATUS` is the same at every
completion. -/
theorem resultDependsOnlyOnTheOperands : Obligations.ResultDependsOnlyOnTheOperands := by
  intro s s' hs hs' hp hp' hsch hsch' he he' hindex hlist hseed hi hl
  obtain ⟨t, hrun, hresult, hstatus⟩ := run_permute s ⟨hs, hp, hsch, he, hi, hl⟩
  obtain ⟨t', hrun', hresult', hstatus'⟩ :=
    run_permute s' ⟨hs', hp', hsch', he', hindex ▸ hlist ▸ hi, hlist ▸ hl⟩
  refine ⟨t, t', hrun, hrun', BitVec.eq_of_toNat_eq ?_, hstatus.trans hstatus'.symm⟩
  rw [hresult, hresult', hindex, hlist, hseed]

end Sys2Proof.Machine
end

section
/-! SUPPORT. The bit of the source digest that a round uses, as a bit of the 256-bit digest
(spec/20_memory.md R79). -/

namespace Sys2Proof.Machine

/-- Bit `j` of digest byte `k` is bit `8k + j` of the digest (R103). -/
theorem digestByte_getLsbD (d : Digest) (k j : Nat) (h : j < 8) :
    (digestByte d k).getLsbD j = d.getLsbD (8 * k + j) := by
  rw [digestByte, BitVec.getLsbD_extractLsb', decide_eq_true h, Bool.true_and]

/-- Settles O38: the byte offset and the bit select are the quotient and the remainder by 8 of
`pos mod 256`. -/
theorem selectedBitIsTheDigestBit : Obligations.SelectedBitIsTheDigestBit := by
  intro d pos
  have hpos : 8 * (pos.toNat % 256 / 8) + pos.toNat % 8 = pos.toNat % 256 := by omega
  constructor
  · rw [selectedBit, byteOffset_toNat, bitSelect_toNat,
      digestByte_getLsbD d _ _ (Nat.mod_lt _ (by decide)), hpos]
  · rw [selectedBit_toNat, Nat.shiftRight_eq_div_pow]

end Sys2Proof.Machine
end

section
/-! SUPPORT. The operands of an operation through a step: while it runs, only SOFT_RESET and a reset
write them, and both end it (spec/20_memory.md R88). -/

namespace Sys2Proof.Machine

/-- The operands of an operation are the same in `t` as in `s`: `INDEX`, `LIST_SIZE`, `SEED_LEN` and
the whole seed buffer (R88). -/
structure SameOperands (s t : State) : Prop where
  index : t.index = s.index
  listSize : t.listSize = s.listSize
  seedLen : t.seedLen = s.seedLen
  seed : t.seed = s.seed

/-- The controller writes no operand (R141, R170, R171, R175). -/
theorem controllerEffect_sameOperands (s t : State) (h : ControllerEffect s t) :
    SameOperands s t := by
  cases h <;> exact ⟨rfl, rfl, rfl, rfl⟩

/-- Of the effects that write an operand, a protected write needs BUSY clear before it and
SOFT_RESET leaves it clear (R200, R207). -/
theorem execEffect_sameOperands (s t : State) (i : Instr) (h : ExecEffect s i t)
    (hs : s.status.busy = true) (ht : t.status.busy = true) : SameOperands s t := by
  cases h with
  | written i u hu hb => rw [hb] at hs; cases hs
  | softReset => cases ht
  | _ => exact ⟨rfl, rfl, rfl, rfl⟩

theorem eventEffect_sameOperands (s t : State) (e : Event) (h : EventEffect s e t)
    (hs : s.status.busy = true) (ht : t.status.busy = true) : SameOperands s t := by
  cases h with
  | reset => cases ht
  | transaction w i t hd he => exact execEffect_sameOperands s t i he hs ht
  | _ => exact ⟨rfl, rfl, rfl, rfl⟩

theorem stepEffect_sameOperands (s t : State) (h : StepEffect s t)
    (hs : s.status.busy = true) (ht : t.status.busy = true) : SameOperands s t := by
  cases h with
  | controller t ha he =>
    obtain ⟨hindex, hlist, hlen, hseed⟩ := controllerEffect_sameOperands _ t he
    exact ⟨hindex, hlist, hlen, hseed⟩
  | performs a e rest t ha he hr hx =>
    obtain ⟨hindex, hlist, hlen, hseed⟩ := eventEffect_sameOperands _ t e hx hs ht
    exact ⟨hindex, hlist, hlen, hseed⟩
  | _ => exact ⟨rfl, rfl, rfl, rfl⟩

/-- Settles O47: each effect of a step with BUSY set before and after it keeps the operands. -/
theorem operandsAreFixedWhileBusy : Obligations.OperandsAreFixedWhileBusy := by
  intro s t h hs ht
  obtain ⟨hindex, hlist, hlen, hseed⟩ := stepEffect_sameOperands s t (step_cases s t h).2 hs ht
  exact ⟨hindex, hlist, hlen, hseed⟩

end Sys2Proof.Machine
end

section
/-! SUPPORT. The operand writes of an engine that is not busy, and a 64-bit operand stored in two
words (spec/20_memory.md R75, spec/42_host_access.md R202, R203). -/

namespace Sys2Proof.Machine

section Free

variable (s : State) (data : Word) (h : s.status.busy = false)
include h

theorem exec_wrIndexLo_of_free :
    exec (.wrIndexLo data) s = .next (okWrite { s with indexLo := data }) :=
  congrArg Host.Outcome.next (unlessBusy_free _ _ _ h)

theorem exec_wrIndexHi_of_free :
    exec (.wrIndexHi data) s = .next (okWrite { s with indexHi := data }) :=
  congrArg Host.Outcome.next (unlessBusy_free _ _ _ h)

theorem exec_wrListSizeLo_of_free :
    exec (.wrListSizeLo data) s = .next (okWrite { s with listSizeLo := data }) :=
  congrArg Host.Outcome.next (unlessBusy_free _ _ _ h)

theorem exec_wrListSizeHi_of_free :
    exec (.wrListSizeHi data) s = .next (okWrite { s with listSizeHi := data }) :=
  congrArg Host.Outcome.next (unlessBusy_free _ _ _ h)

end Free

/-- The high and the low word of a 64-bit value give the value back (R75). -/
theorem highWord_append_lowWord (v : BitVec 64) :
    (v >>> 32).setWidth 32 ++ v.setWidth 32 = v := by
  apply BitVec.eq_of_toNat_eq
  have := v.isLt
  simp only [toNat_append_mul, BitVec.toNat_setWidth, BitVec.toNat_ushiftRight,
    Nat.shiftRight_eq_div_pow]
  omega

/-- Settles O19: the first write leaves the engine free for the second, and the two half registers
then hold the words of the value. -/
theorem twoWordWritesSetTheOperand : Obligations.TwoWordWritesSetTheOperand := by
  intro s v h
  exact ⟨⟨_, _, exec_wrIndexLo_of_free s _ h, exec_wrIndexHi_of_free _ _ h,
      highWord_append_lowWord v, rfl⟩,
    ⟨_, _, exec_wrListSizeLo_of_free s _ h, exec_wrListSizeHi_of_free _ _ h,
      highWord_append_lowWord v, rfl⟩⟩

end Sys2Proof.Machine
end

section
/-! SUPPORT. Register writes are idempotent: a write is a chain of checks that its own effect does
not disturb, and each branch of the chain is idempotent (spec/20_memory.md R81). -/

namespace Sys2Proof.Machine

/-- A write under one check of R200: where the check fails the access is rejected instead. -/
def checkedWrite (pass : State → Bool) (c : BusCause) (off : Offset) (write : State → State)
    (s : State) : State :=
  if pass s then write s else raiseBusError c off true s

/-- An idempotent write under a check that neither the write nor the rejection disturbs is
idempotent: the second access takes the branch of the first. -/
theorem checkedWrite_idem (pass : State → Bool) (c : BusCause) (off : Offset)
    (write : State → State) (hwrite : ∀ s, write (write s) = write s)
    (hpass : ∀ s, pass (write s) = pass s)
    (hreject : ∀ s, pass (raiseBusError c off true s) = pass s) (s : State) :
    checkedWrite pass c off write (checkedWrite pass c off write s) =
      checkedWrite pass c off write s := by
  cases hp : pass s with
  | true =>
    have hs : checkedWrite pass c off write s = write s := if_pos hp
    rw [hs, checkedWrite, if_pos ((hpass s).trans hp), hwrite]
  | false =>
    have hs : checkedWrite pass c off write s = raiseBusError c off true s := by
      rw [checkedWrite, hp]; rfl
    rw [hs, checkedWrite, hreject, hp]
    rfl

/-- The write of a protected register, under the check of BUSY (R200). -/
def protectedWrite (off : Offset) (write : State → State) : State → State :=
  checkedWrite (fun s => !s.status.busy) .busy off write

theorem protectedWrite_eq (off : Offset) (write : State → State) (s : State) :
    protectedWrite off write s = unlessBusy off s (write s) := by
  rw [protectedWrite, checkedWrite, unlessBusy]
  cases s.status.busy <;> rfl

theorem protectedWrite_idem (off : Offset) (write : State → State)
    (hwrite : ∀ s, write (write s) = write s)
    (hstatus : ∀ s, (write s).status = s.status) (s : State) :
    protectedWrite off write (protectedWrite off write s) = protectedWrite off write s :=
  checkedWrite_idem _ _ _ _ hwrite (fun s => congrArg (fun st => !st.busy) (hstatus s))
    (fun _ => rfl) s

theorem protectedWrite_seedCap (off : Offset) (write : State → State)
    (hcap : ∀ s, (write s).seedCap = s.seedCap) (s : State) :
    (protectedWrite off write s).seedCap = s.seedCap := by
  rw [protectedWrite, checkedWrite]
  split
  · exact hcap s
  · rfl

/-- A second seed write puts the same lanes in the same bytes (R205). -/
theorem okWrite_writeSeedWord_idem (j : BitVec 8) (data : Word) (s : State) :
    okWrite (writeSeedWord j data (okWrite (writeSeedWord j data s))) =
      okWrite (writeSeedWord j data s) :=
  congrArg (fun buffer => okWrite { s with seed := buffer }) (writeSeedWord_idem j data s)

/-- The instruction performed again in the state it left changes nothing more. -/
def Repeatable (i : Instr) : Prop := ∀ s t, exec i s = .next t → exec i t = .next t

/-- An instruction whose effect is an idempotent function of the state is repeatable. -/
theorem repeatable_of_idem (i : Instr) (effect : State → State)
    (hexec : ∀ s, exec i s = .next (effect s))
    (hidem : ∀ s, effect (effect s) = effect s) : Repeatable i := by
  intro s t h
  obtain rfl : effect s = t := Host.Outcome.next.inj ((hexec s).symm.trans h)
  rw [hexec, hidem]

/-- A write that checks BUSY alone (R202, R203). -/
theorem repeatable_of_protectedWrite (i : Instr) (off : Offset) (write : State → State)
    (hexec : ∀ s, exec i s = .next (unlessBusy off s (write s)))
    (hwrite : ∀ s, write (write s) = write s)
    (hstatus : ∀ s, (write s).status = s.status) : Repeatable i :=
  repeatable_of_idem i (protectedWrite off write)
    (fun s => (hexec s).trans (congrArg _ (protectedWrite_eq off write s).symm))
    (protectedWrite_idem off write hwrite hstatus)

/-- A write that checks BUSY after a check that depends on `SEED_CAP` alone, which no write changes
(R7, R204, R205). -/
theorem repeatable_of_legalProtectedWrite (i : Instr) (legal : Nat → Bool) (c : BusCause)
    (off : Offset) (write : State → State)
    (hexec : ∀ s, exec i s = .next (if legal s.seedCap then unlessBusy off s (write s)
      else raiseBusError c off true s))
    (hwrite : ∀ s, write (write s) = write s)
    (hstatus : ∀ s, (write s).status = s.status)
    (hcap : ∀ s, (write s).seedCap = s.seedCap) : Repeatable i := by
  refine repeatable_of_idem i
    (checkedWrite (fun s => legal s.seedCap) c off (protectedWrite off write)) (fun s => ?_)
    (checkedWrite_idem _ _ _ _ (protectedWrite_idem off write hwrite hstatus)
      (fun s => congrArg legal (protectedWrite_seedCap off write hcap s)) (fun _ => rfl))
  rw [hexec, checkedWrite, protectedWrite_eq]

/-- A write that is never BUSY, under a check of its value (R211, R212). -/
theorem repeatable_of_legalWrite (i : Instr) (legal : Bool) (c : BusCause) (off : Offset)
    (write : State → State)
    (hexec : ∀ s, exec i s = .next (if legal then write s else raiseBusError c off true s))
    (hwrite : ∀ s, write (write s) = write s) : Repeatable i :=
  repeatable_of_idem i (checkedWrite (fun _ => legal) c off write) hexec
    (checkedWrite_idem _ _ _ _ hwrite (fun _ => rfl) (fun _ => rfl))

theorem repeatable_wrIndexLo (data : Word) : Repeatable (.wrIndexLo data) :=
  repeatable_of_protectedWrite _ _ (fun s => okWrite { s with indexLo := data })
    (fun _ => rfl) (fun _ => rfl) (fun _ => rfl)

theorem repeatable_wrIndexHi (data : Word) : Repeatable (.wrIndexHi data) :=
  repeatable_of_protectedWrite _ _ (fun s => okWrite { s with indexHi := data })
    (fun _ => rfl) (fun _ => rfl) (fun _ => rfl)

theorem repeatable_wrListSizeLo (data : Word) : Repeatable (.wrListSizeLo data) :=
  repeatable_of_protectedWrite _ _ (fun s => okWrite { s with listSizeLo := data })
    (fun _ => rfl) (fun _ => rfl) (fun _ => rfl)

theorem repeatable_wrListSizeHi (data : Word) : Repeatable (.wrListSizeHi data) :=
  repeatable_of_protectedWrite _ _ (fun s => okWrite { s with listSizeHi := data })
    (fun _ => rfl) (fun _ => rfl) (fun _ => rfl)

theorem repeatable_wrSeedLen (data : Word) : Repeatable (.wrSeedLen data) :=
  repeatable_of_legalProtectedWrite _ (legalSeedLen · data) .illegalValue _
    (fun s => okWrite { s with seedLen := data.extractLsb' 0 11 })
    (fun _ => rfl) (fun _ => rfl) (fun _ => rfl) (fun _ => rfl)

theorem repeatable_wrSeed (j : BitVec 8) (data : Word) : Repeatable (.wrSeed j data) :=
  repeatable_of_legalProtectedWrite _ (seedMapped · j) .unmapped _
    (fun s => okWrite (writeSeedWord j data s))
    (fun _ => rfl) (okWrite_writeSeedWord_idem j data) (fun _ => rfl) (fun _ => rfl)

theorem repeatable_wrIrqEn (data : Word) : Repeatable (.wrIrqEn data) :=
  repeatable_of_legalWrite _ (legalFlag data) .illegalValue _
    (fun s => okWrite { s with irqEn := data.getLsbD 0 }) (fun _ => rfl) (fun _ => rfl)

/-- An `ack` clears `PEND`, and a write of 0 leaves it: neither turns it (R212). -/
theorem repeatable_wrIrqStatus (data : Word) : Repeatable (.wrIrqStatus data) := by
  refine repeatable_of_legalWrite _ (legalFlag data) .illegalValue _
    (fun s => okWrite { s with irqPend := if data.getLsbD 0 then false else s.irqPend })
    (fun _ => rfl) (fun s => ?_)
  cases data.getLsbD 0 <;> rfl

/-- Settles O23: each of the eight writes is repeatable, accepted or rejected. -/
theorem registerWritesAreIdempotent : Obligations.RegisterWritesAreIdempotent := by
  intro i s t hi
  rcases hi with ⟨d, rfl⟩ | ⟨d, rfl⟩ | ⟨d, rfl⟩ | ⟨d, rfl⟩ | ⟨d, rfl⟩ | ⟨d, rfl⟩ | ⟨d, rfl⟩ |
    ⟨j, d, rfl⟩
  · exact repeatable_wrIndexLo d s t
  · exact repeatable_wrIndexHi d s t
  · exact repeatable_wrListSizeLo d s t
  · exact repeatable_wrListSizeHi d s t
  · exact repeatable_wrSeedLen d s t
  · exact repeatable_wrIrqEn d s t
  · exact repeatable_wrIrqStatus d s t
  · exact repeatable_wrSeed j d s t

end Sys2Proof.Machine
end

section
/-! SUPPORT. The frames and the instructions are two writings of one thing: what the encoder writes
the decoder reads back, and what the decoder reads is what the encoder writes (spec/30_encoding.md
R102, R103, R105, R110). -/

namespace Sys2Proof.Machine

/-! ### Decoding what the encoder writes -/

/-! A query instruction is read back at every round and block, also at a round that no controller
issues (R103, log entry 9). -/

theorem decode_dqHost (cap : Nat) : decode cap (encode .dqHost) = .instr .dqHost :=
  decode_dq42 cap ⟨0#2, 0#8, 0#32⟩

theorem decode_dqPivot (cap : Nat) (rnd : Byte) :
    decode cap (encode (.dqPivot rnd)) = .instr (.dqPivot rnd) :=
  decode_dq42 cap ⟨1#2, rnd, 0#32⟩

theorem decode_dqSource (cap : Nat) (rnd : Byte) (blk : Word) :
    decode cap (encode (.dqSource rnd blk)) = .instr (.dqSource rnd blk) :=
  decode_dq42 cap ⟨2#2, rnd, blk⟩

/-- Settles O1: a read, a write and a query are each read back from the fields the encoder packed;
well-formedness says that the register they name is mapped. -/
theorem decodeInvertsEncode : Obligations.DecodeInvertsEncode := by
  intro cap i _ hwf
  cases i with
  | rd r => exact decode_readFrame cap r hwf
  | wrIndexLo data => exact decode_writeFrame cap .indexLo data rfl
  | wrIndexHi data => exact decode_writeFrame cap .indexHi data rfl
  | wrListSizeLo data => exact decode_writeFrame cap .listSizeLo data rfl
  | wrListSizeHi data => exact decode_writeFrame cap .listSizeHi data rfl
  | wrSeedLen data => exact decode_writeFrame cap .seedLen data rfl
  | wrIrqEn data => exact decode_writeFrame cap .irqEn data rfl
  | wrIrqStatus data => exact decode_writeFrame cap .irqStatus data rfl
  | wrSeed j data => exact decode_writeFrame cap (.seed j) data hwf
  | nop => exact decode_writeFrame cap .ctrl 0#32 rfl
  | permute => exact decode_writeFrame cap .ctrl 1#32 rfl
  | hash => exact decode_writeFrame cap .ctrl 2#32 rfl
  | softReset => exact decode_writeFrame cap .ctrl 3#32 rfl
  | dqHost => exact decode_dqHost cap
  | dqPivot rnd => exact decode_dqPivot cap rnd
  | dqSource rnd blk => exact decode_dqSource cap rnd blk

/-! ### Encoding what the decoder reads -/

/-- A command that the decoder reads is encoded as a write of its word to `CTRL` (R101). -/
theorem encode_of_decodeCommand (data : Word) (i : Instr) (h : decodeCommand data = some i) :
    encode i = writeFrame .ctrl data := by
  rw [decodeCommand_eq] at h
  repeat' split at h
  all_goals cases h
  all_goals subst data; rfl

/-- An instruction that a write decodes to is encoded as that write (R105). -/
theorem encode_of_decodeWrite (r : Reg) (off : Offset) (data : Word) (i : Instr)
    (h : decodeWrite r off data = .instr i) : encode i = writeFrame r data := by
  cases r with
  | ctrl =>
    cases hcmd : decodeCommand data with
    | none => simp [decodeWrite, hcmd] at h
    | some k =>
      obtain rfl : k = i := by simpa [decodeWrite, hcmd] using h
      exact encode_of_decodeCommand data k hcmd
  | _ => cases h <;> rfl

/-- The fields of a descriptor whose decoding reaches a register: only its direction and its data
are free (R102, R73, R20). -/
theorem descriptor_eq_of_reaches (cap : Nat) (d : Descriptor) (r : Reg)
    (hcap : Config.legalSeedCap cap = true) (he : descriptorError d = none)
    (ha : descriptorAligned d = true) (hr : regOfOffset cap d.off = some r) :
    d = ⟨d.w, 2#2, false, regOffset r, d.data⟩ := by
  obtain ⟨hsz, hmod⟩ := (descriptorAligned_iff d).mp ha
  obtain ⟨-, hrsv, -⟩ := descriptorError_none d he
  obtain ⟨hoff, -⟩ := regOfOffset_some cap d.off r hcap hmod hr
  exact Descriptor.ext' rfl hsz hrsv hoff.symm rfl

/-- An instruction that a descriptor decodes to is encoded as that descriptor (R102, R105). -/
theorem encode_of_decodeDescriptor (cap : Nat) (d : Descriptor) (i : Instr)
    (hcap : Config.legalSeedCap cap = true) (h : decodeDescriptor cap d = .instr i) :
    encode i = .td48 (descriptorBits d) := by
  obtain ⟨he, ha, r, hr, hdir⟩ := decodeDescriptor_instr cap d i h
  have hd := descriptor_eq_of_reaches cap d r hcap he ha hr
  rcases hdir with ⟨hw, hdec⟩ | ⟨hw, rfl⟩
  · rw [encode_of_decodeWrite r d.off d.data i hdec, hd, hw]
    rfl
  · obtain ⟨-, -, hdata⟩ := descriptorError_none d he
    rw [hd, hw, hdata hw]
    rfl

/-- An instruction that a query decodes to is encoded as that query: a field that its kind does not
use is 0, or the query is refused (R103, log entry 9). -/
theorem encode_of_decodeQuery (q : Query) (i : Instr) (h : decodeQuery q = .instr i) :
    encode i = .dq42 (queryBits q) := by
  obtain ⟨kind, rnd, blk⟩ := q
  simp only [decodeQuery] at h
  split at h
  next hk =>
    split at h
    next hz => cases h; rw [hk, hz.1, hz.2]; rfl
    next => cases h
  next =>
    split at h
    next hk =>
      split at h
      next hz => cases h; rw [hk, hz]; rfl
      next => cases h
    next =>
      split at h
      next hk => cases h; rw [hk]; rfl
      next => cases h

/-- Settles O2: the fields of a frame that decodes to an instruction are those the encoder packs,
and packing the fields of a word gives the word. -/
theorem encodeInvertsDecode : Obligations.EncodeInvertsDecode := by
  intro cap f i hcap h
  cases f with
  | td48 w =>
    rw [encode_of_decodeDescriptor cap (descriptorOfBits w) i hcap h,
      descriptorBits_descriptorOfBits]
  | dq42 w => rw [encode_of_decodeQuery (queryOfBits w) i h, queryBits_queryOfBits]

end Sys2Proof.Machine
end

section
/-! SUPPORT. The rows of the opcode table: a word whose upper half is the header of a register's
access (bits 47:32, spec/30_encoding.md R102, R110) is the frame of that access; and the command
words, which are the data of the writes to `CTRL` (R101). -/

namespace Sys2Proof.Machine

/-! ### Frames by their header -/

/-- The header of a write is 0xC000 plus the register's offset: `W = 1`, `SZ = 2`. -/
theorem writeFrame_eq_header (r : Reg) (data : Word) (hdr : BitVec 16)
    (h : hdr.toNat = 0xC000 + (regOffset r).toNat) : .td48 (hdr ++ data) = writeFrame r data := by
  refine congrArg Frame.td48 (BitVec.eq_of_toNat_eq ?_)
  rw [toNat_append_mul, descriptorBits_toNat, h]
  simp only [Bool.toNat_true, Bool.toNat_false, BitVec.toNat_ofNat]
  omega

/-- The header of a read is 0x4000 plus the register's offset: `W = 0`, `SZ = 2`. -/
theorem readFrame_eq_header (r : Reg) (hdr : BitVec 16)
    (h : hdr.toNat = 0x4000 + (regOffset r).toNat) : .td48 (hdr ++ 0#32) = readFrame r := by
  refine congrArg Frame.td48 (BitVec.eq_of_toNat_eq ?_)
  rw [toNat_append_mul, descriptorBits_toNat, h]
  simp only [Bool.toNat_false, BitVec.toNat_ofNat]
  omega

/-- A word with the header of a mapped register's write decodes as that write. -/
theorem decode_writeHeader (cap : Nat) (r : Reg) (data : Word) (hdr : BitVec 16)
    (hm : r.mapped cap = true) (h : hdr.toNat = 0xC000 + (regOffset r).toNat) :
    decode cap (.td48 (hdr ++ data)) = decodeWrite r (regOffset r) data := by
  rw [writeFrame_eq_header r data hdr h, decode_writeFrame cap r data hm]

/-- A word with the header of a mapped register's read, and no data, decodes to that read. -/
theorem decode_readHeader (cap : Nat) (r : Reg) (hdr : BitVec 16)
    (hm : r.mapped cap = true) (h : hdr.toNat = 0x4000 + (regOffset r).toNat) :
    decode cap (.td48 (hdr ++ 0#32)) = .instr (.rd r) := by
  rw [readFrame_eq_header r hdr h, decode_readFrame cap r hm]

/-! ### The rows with a varying offset -/

theorem decode_seedWrite_row (cap : Nat) (j : BitVec 8) (data : Word) (hj : 4 * j.toNat < cap) :
    decode cap (.td48 (BitVec.ofNat 16 (0xC100 + 4 * j.toNat) ++ data)) =
      .instr (.wrSeed j data) := by
  refine decode_writeHeader cap (.seed j) data _ ((seedMapped_iff cap j).mpr hj) ?_
  have := j.isLt
  rw [seed_offset_toNat, BitVec.toNat_ofNat]
  omega

theorem decode_seedRead_row (cap : Nat) (j : BitVec 8) (hj : 4 * j.toNat < cap) :
    decode cap (.td48 (BitVec.ofNat 16 (0x4100 + 4 * j.toNat) ++ 0#32)) =
      .instr (.rd (.seed j)) := by
  refine decode_readHeader cap (.seed j) _ ((seedMapped_iff cap j).mpr hj) ?_
  have := j.isLt
  rw [seed_offset_toNat, BitVec.toNat_ofNat]
  omega

theorem decode_digestRead_row (cap : Nat) (k : Fin 8) :
    decode cap (.td48 (BitVec.ofNat 16 (0x4040 + 4 * k.val) ++ 0#32)) =
      .instr (.rd (.digest k)) := by
  refine decode_readHeader cap (.digest k) _ rfl ?_
  have := k.isLt
  rw [digest_offset_toNat, BitVec.toNat_ofNat]
  omega

/-- Settles O3: every row is the frame of its register's access, of its command's write to `CTRL` or
of its query. -/
theorem opcodeTableRowsDecode : Obligations.OpcodeTableRowsDecode := by
  intro cap data _
  exact ⟨decode_writeHeader cap .indexLo data _ rfl rfl,
    decode_writeHeader cap .indexHi data _ rfl rfl,
    decode_writeHeader cap .listSizeLo data _ rfl rfl,
    decode_writeHeader cap .listSizeHi data _ rfl rfl,
    decode_writeHeader cap .seedLen data _ rfl rfl,
    decode_writeHeader cap .irqEn data _ rfl rfl,
    decode_writeHeader cap .irqStatus data _ rfl rfl,
    fun j hj => ⟨decode_seedWrite_row cap j data hj, decode_seedRead_row cap j hj⟩,
    decode_writeFrame cap .ctrl 0#32 rfl,
    decode_permute_word cap,
    decode_writeFrame cap .ctrl 2#32 rfl,
    decode_writeFrame cap .ctrl 3#32 rfl,
    decode_readFrame cap .id rfl,
    decode_readFrame cap .params rfl,
    decode_readFrame cap .ctrl rfl,
    decode_readFrame cap .status rfl,
    decode_readFrame cap .indexLo rfl,
    decode_readFrame cap .indexHi rfl,
    decode_readFrame cap .listSizeLo rfl,
    decode_readFrame cap .listSizeHi rfl,
    decode_readFrame cap .seedLen rfl,
    decode_readFrame cap .resultLo rfl,
    decode_readFrame cap .resultHi rfl,
    decode_readFrame cap .irqEn rfl,
    decode_readFrame cap .irqStatus rfl,
    decode_readFrame cap .busErr rfl,
    decode_digestRead_row cap,
    decode_dqHost cap,
    decode_dqPivot cap,
    fun rnd => decode_dqSource cap rnd data⟩

/-! ### The command words -/

/-- Settles O4: a write to `CTRL` is read as the command its word is, and every other word is the
rejected value (R101, R208). -/
theorem commandWordsAreExactlyFour : Obligations.CommandWordsAreExactlyFour := by
  intro s data
  rw [decode_writeHeader s.seedCap .ctrl data 0xC008#16 rfl rfl, decodeWrite, decodeCommand_eq]
  split_ifs
  case neg => exact congrArg Host.Outcome.next (raiseBusError_eq .illegalValue 0x008#12 true s)
  all_goals rfl

end Sys2Proof.Machine
end

section
/-! SUPPORT. The frames that the model refuses: an instruction is never refused, so a frame is
refused exactly when its fields spell no transaction and no query (spec/30_encoding.md R102, R103,
log entry 9). -/

namespace Sys2Proof.Machine

/-- A decoding is refused exactly when it is that of a frame that spells nothing: an instruction and
a bus error answer a next state. -/
theorem runDecoded_refused_iff (d : Decoded) (s : State) (e : FrameError) :
    runDecoded d s = .refused (.spellsNothing e) ↔ d = .invalid e := by
  cases d with
  | instr i =>
    obtain ⟨t, ht, -⟩ := exec_effect i s
    simp [runDecoded, ht]
  | busError c off w => simp [runDecoded]
  | invalid why => simp [runDecoded]

/-! ### Descriptors -/

/-- The lines of R105 refuse nothing: a descriptor is refused by the check that stands before
them. -/
theorem decodeDescriptor_invalid_iff (cap : Nat) (d : Descriptor) (e : FrameError) :
    decodeDescriptor cap d = .invalid e ↔ descriptorError d = some e := by
  cases he : descriptorError d with
  | some e' => simp [decodeDescriptor, he]
  | none =>
    suffices decodeDescriptor cap d ≠ .invalid e by simpa using this
    by_cases ha : descriptorAligned d = true
    · cases hr : regOfOffset cap d.off with
      | none => simp [decodeDescriptor_unmapped cap d he ha hr]
      | some r =>
        cases hw : d.w with
        | false => simp [decodeDescriptor_read cap d r he ha hr hw]
        | true =>
          rw [decodeDescriptor_write cap d r he ha hr hw]
          rcases decodeWrite_cases r d.off d.data with ⟨i, hi⟩ | hi | hi <;> simp [hi]
    · simp [decodeDescriptor_misaligned cap d he ha]

/-- The descriptors that spell no transaction (R102). -/
theorem descriptorError_some_iff (d : Descriptor) :
    (∃ e, descriptorError d = some e) ↔
      d.sz = 3#2 ∨ d.rsv = true ∨ (d.w = false ∧ d.data ≠ 0#32) := by
  unfold descriptorError
  split_ifs <;> simp_all

/-- A bit of a word is set when it is the last digit of the shifted number. -/
theorem getLsbD_eq_true_iff {n : Nat} (x : BitVec n) (k : Nat) :
    x.getLsbD k = true ↔ x.toNat / 2 ^ k % 2 = 1 := by
  rw [← toNat_getLsbD]
  cases x.getLsbD k <;> simp

/-- Settles O5: the check of R102, with each field of the word as a number. -/
theorem descriptorsThatSpellNothing : Obligations.DescriptorsThatSpellNothing := by
  intro s w
  have hw := w.isLt
  have hsz : (descriptorOfBits w).sz = 3#2 ↔ w.toNat / 2 ^ 45 % 4 = 3 := by
    rw [← BitVec.toNat_inj, descriptorOfBits, toNat_extract]
    rfl
  have hrsv : (descriptorOfBits w).rsv = true ↔ w.toNat / 2 ^ 44 % 2 = 1 :=
    getLsbD_eq_true_iff w 44
  have hread : (descriptorOfBits w).w = false ↔ w.toNat / 2 ^ 47 = 0 := by
    rw [← Bool.not_eq_true, descriptorOfBits, getLsbD_eq_true_iff]
    omega
  have hdata : (descriptorOfBits w).data = 0#32 ↔ w.toNat % 2 ^ 32 = 0 := by
    rw [← BitVec.toNat_inj, descriptorOfBits, toNat_extract]
    simp
  simp only [runDecoded_refused_iff, decode, decodeDescriptor_invalid_iff,
    descriptorError_some_iff, hsz, hrsv, hread, ne_eq, hdata]

/-! ### Queries -/

/-- The queries that spell nothing (R103, log entry 9). -/
theorem decodeQuery_invalid_iff (q : Query) :
    (∃ e, decodeQuery q = .invalid e) ↔
      q.kind = 3#2 ∨ (q.kind = 0#2 ∧ ¬ (q.rnd = 0#8 ∧ q.blk = 0#32)) ∨
        (q.kind = 1#2 ∧ q.blk ≠ 0#32) := by
  obtain ⟨kind, rnd, blk⟩ := q
  obtain rfl | rfl | rfl | rfl : kind = 0#2 ∨ kind = 1#2 ∨ kind = 2#2 ∨ kind = 3#2 := by
    revert kind; decide
  · by_cases h : rnd = 0#8 ∧ blk = 0#32 <;> simp [decodeQuery, h]
  · by_cases h : blk = 0#32 <;> simp [decodeQuery, h]
  · simp [decodeQuery]
  · simp [decodeQuery]

/-- Settles O6: the check of a query, with each field of the word as a number; a HOST query with all
fields 0 is the word 0. -/
theorem queriesThatSpellNothing : Obligations.QueriesThatSpellNothing := by
  intro s w
  have hw := w.isLt
  have hkind (k : BitVec 2) : (queryOfBits w).kind = k ↔ w.toNat / 2 ^ 40 = k.toNat := by
    rw [← BitVec.toNat_inj, queryOfBits, toNat_extract]
    omega
  have hrnd : (queryOfBits w).rnd = 0#8 ↔ w.toNat / 2 ^ 32 % 2 ^ 8 = 0 := by
    rw [← BitVec.toNat_inj, queryOfBits, toNat_extract]
    rfl
  have hblk : (queryOfBits w).blk = 0#32 ↔ w.toNat % 2 ^ 32 = 0 := by
    rw [← BitVec.toNat_inj, queryOfBits, toNat_extract]
    simp
  simp only [runDecoded_refused_iff, decode, decodeQuery_invalid_iff, hkind, hrnd, hblk, ne_eq,
    BitVec.toNat_ofNat]
  omega

end Sys2Proof.Machine
end

section
/-! SUPPORT. The HASH command: its frame, its acceptance, and its completion, which leaves in the
digest registers the bytes of the query's answer (spec/40_hash.md R140, R141). -/

namespace Sys2Proof.Machine

/-! ### Acceptance -/

/-- The word of HASH is its header at `CTRL` and the command code (R101, R110). -/
theorem encode_hash : encode .hash = .td48 0xC00800000002#48 :=
  (writeFrame_eq_header .ctrl 2#32 0xC008#16 rfl).symm

/-- A HASH that finds the engine free is accepted (R140). -/
theorem exec_hash_of_free (s : State) (h : s.status.busy = false) :
    exec .hash s = .next
      (okWrite { s with status := acceptedStatus opHash true, phase := .hash, round := 0#7 }) :=
  congrArg Host.Outcome.next (unlessBusy_free _ _ _ h)

/-- A HASH that finds the engine busy is rejected (R140, R241). -/
theorem exec_hash_of_busy (s : State) (h : s.status.busy = true) :
    exec .hash s = .next (rejectedState 5#3 0x008#12 true s) := by
  rw [exec, execHash, unlessBusy_busy _ _ _ h, raiseBusError_eq]
  rfl

/-- Settles O27: the two branches of the acceptance. -/
theorem hashAcceptance : Obligations.HashAcceptance := by
  refine ⟨encode_hash, fun s => ⟨fun h => ?_, exec_hash_of_busy s⟩⟩
  have hword : (acceptedStatus opHash true).word = 0x00020001#32 := by decide
  exact ⟨_, exec_hash_of_free s h, hword, rfl⟩

/-! ### The digest registers -/

theorem digestWords_getElem (d : Digest) (k : Fin 8) : (digestWords d)[k] = digestWord d k := by
  fin_cases k <;> rfl

/-- Byte `b` of `DIGESTk` is digest byte `4k + b` (R33). -/
theorem digestWord_byte (d : Digest) (k b : Nat) (h : b < 4) :
    (digestWord d k).toNat / 2 ^ (8 * b) % 2 ^ 8 = (digestByte d (4 * k + b)).toNat := by
  rw [digestWord, ofLanes_toNat]
  obtain rfl | rfl | rfl | rfl : b = 0 ∨ b = 1 ∨ b = 2 ∨ b = 3 := by omega
  · show _ = (digestByte d (4 * k)).toNat
    omega
  all_goals omega

/-! ### Completion -/

/-- After the HASH step, byte `b` of `DIGESTk` is byte `4k + b` of the digest of `SEEDSTR`. -/
theorem hashStep_digest_byte (s : State) (k : Fin 8) (b : Nat) (h : b < 4) :
    (readValue (.digest k) (hashStep s)).toNat / 2 ^ (8 * b) % 2 ^ 8 =
      ((sha256Bytes s.seedStr).getD (4 * k.val + b) 0#8).toNat := by
  have hread : readValue (.digest k) (hashStep s) = digestWord (sha256 s.seedStr) k :=
    digestWords_getElem _ k
  rw [hread, digestWord_byte _ _ _ h, digestByte_sha256]

/-- A legal engine in the HASH phase has the `STATUS` of the acceptance of HASH (R140). -/
theorem status_of_hash_phase (s : State) (hs : EngineInv s) (h : s.phase = .hash) :
    s.status = acceptedStatus opHash true := by
  have hbusy : s.status.busy = true := hs.controller.busy.mpr (by rw [h]; decide)
  obtain ⟨hdone, herr, hcode⟩ := hs.registers.status.busyClear hbusy
  obtain ⟨hop, -⟩ := hs.controller.hash h
  have hround := hs.registers.status.hashRound hop
  calc s.status = ⟨s.status.busy, s.status.done, s.status.err, s.status.errcode, s.status.round,
        s.status.op⟩ := rfl
    _ = acceptedStatus opHash true := by
      rw [hbusy, hdone, herr, hcode, hround, hop, acceptedStatus]

/-- Settles O30: the HASH step is the query's answer followed by the writes of the completion. -/
theorem hashCompletion : Obligations.HashCompletion := by
  intro s h
  refine ⟨hashStep s, controllerStep_of_hash s h, hashStep_digest_byte s, rfl, fun hs => ?_⟩
  have hstatus : (hashStep s).status = completedStatus s.status := rfl
  rw [hstatus, status_of_hash_phase s hs h]
  decide

end Sys2Proof.Machine
end

section
/-! SUPPORT. The digest queries: their messages as bytes, the bytes of the port's answer, and the
lengths of the messages (spec/40_hash.md R134 to R139). -/

namespace Sys2Proof.Machine

/-! ### The messages as bytes -/

theorem u8_toNat (b : Byte) : u8 b.toNat = [b] := by simp [u8]

/-- `u32le` of a word is its four bytes, least significant first (R77). -/
theorem u32le_toNat (w : Word) :
    u32le w.toNat =
      [w.extractLsb' 0 8, w.extractLsb' 8 8, w.extractLsb' 16 8, w.extractLsb' 24 8] :=
  rfl

theorem pivotMessage_eq (rnd : Byte) (s : State) :
    pivotMessage rnd s = s.seedStr ++ [rnd] := by rw [pivotMessage, u8_toNat]

theorem sourceMessage_eq (rnd : Byte) (blk : Word) (s : State) :
    sourceMessage rnd blk s =
      s.seedStr ++ [rnd, blk.extractLsb' 0 8, blk.extractLsb' 8 8, blk.extractLsb' 16 8,
        blk.extractLsb' 24 8] := by
  rw [sourceMessage, u8_toNat, u32le_toNat, List.append_assoc, List.singleton_append]

/-! ### The answer -/

/-- The 32 bytes of the port's answer, byte `k` at bits `[8k+7:8k]`, are the digest (R103). -/
theorem sha256_bytes (m : List Byte) :
    (List.range 32).map (fun k => BitVec.ofNat 8 ((sha256 m).toNat / 2 ^ (8 * k))) =
      sha256Bytes m := by
  refine List.ext_getElem (by simp [sha256Bytes_length]) fun k _ hk => ?_
  have hbyte : BitVec.ofNat 8 ((sha256 m).toNat / 2 ^ (8 * k)) = digestByte (sha256 m) k :=
    BitVec.eq_of_toNat_eq ((BitVec.toNat_ofNat _ _).trans (digestByte_toNat _ k).symm)
  rw [List.getElem_map, List.getElem_range, hbyte, digestByte_sha256,
    List.getD_eq_getElem _ _ hk]

/-- Settles O28: each query answers the digest of its message, and the messages are the byte
strings of R136, R137 and R138. -/
theorem queriesAnswerTheDigest : Obligations.QueriesAnswerTheDigest := by
  intro s rnd blk
  refine ⟨⟨_, rfl, rfl, sha256_bytes _⟩, ⟨_, rfl, rfl, ?_⟩, ⟨_, rfl, rfl, ?_⟩, rfl, rfl, rfl⟩
  · exact (sha256_bytes _).trans (congrArg sha256Bytes (pivotMessage_eq rnd s))
  · exact (sha256_bytes _).trans (congrArg sha256Bytes (sourceMessage_eq rnd blk s))

/-! ### The lengths -/

/-- `SEEDSTR` has `SEED_LEN` bytes: the buffer is never shorter (R28, R34). -/
theorem seedStr_length (s : State) (h : RegistersLegal s) :
    s.seedStr.length = s.seedLen.toNat := by
  rw [State.seedStr, List.length_take, h.seedLength, Nat.min_eq_left h.seedLen]

/-- Settles O29: the lengths of the messages from that of `SEEDSTR`, and the blocks from the length
of the padded message. -/
theorem messagesFitSeventeenBlocks : Obligations.MessagesFitSeventeenBlocks := by
  intro s rnd blk h
  have hseed := seedStr_length s h
  obtain ⟨-, -, hcap⟩ := (legalSeedCap_iff s.seedCap).mp h.cap
  have hlen := h.seedLen
  have hsource : (sourceMessage rnd blk s).length = s.seedLen.toNat + 5 := by
    rw [sourceMessage_eq, List.length_append, hseed]
    rfl
  refine ⟨hseed, ?_, hsource, by omega, by omega, fun m => ?_⟩
  · rw [pivotMessage_eq, List.length_append, hseed]
    rfl
  · have hpad := shaPad_length m
    exact ⟨by omega, by omega, by omega⟩

end Sys2Proof.Machine
end

section
/-! SUPPORT. The rounds as a function on the list: each round is an involution, so `permute` is
undone by the rounds in descending order and rearranges the list (spec/41_permute.md R181, R182). -/

namespace Sys2Proof.Machine

/-! ### One round -/

/-- A round is an involution: the index and its partner have the same partner and the same position,
so both take the same bit (R181). -/
theorem permuteRound_permuteRound (seed : List Byte) (n r index : Nat) (h : index < n) :
    permuteRound seed n r (permuteRound seed n r index) = index := by
  have hpartner := refFlip_refFlip n (refPivot seed n r) index (refPivot_lt seed n r (by omega)) h
  by_cases hbit : refBit seed r (max index (refFlip n (refPivot seed n r) index)) = 1
  · have hswap : permuteRound seed n r index = refFlip n (refPivot seed n r) index := by
      rw [permuteRound_eq, if_pos hbit]
    rw [hswap, permuteRound_eq, hpartner, max_comm, if_pos hbit]
  · have hkeep : permuteRound seed n r index = index := by rw [permuteRound_eq, if_neg hbit]
    rw [hkeep, hkeep]

/-! ### All rounds -/

section Rounds

variable (seed : List Byte) (n k index : Nat)

theorem unpermuteRounds_lt (h : index < n) : unpermuteRounds seed n k index < n := by
  induction k generalizing index with
  | zero => exact h
  | succ k ih => exact ih _ (permuteRound_lt seed n k index h)

/-- The descending rounds undo the ascending ones, the last round first (R181). -/
theorem unpermuteRounds_permuteRounds (h : index < n) :
    unpermuteRounds seed n k (permuteRounds seed n k index) = index := by
  induction k with
  | zero => rfl
  | succ k ih =>
    rw [permuteRounds, unpermuteRounds,
      permuteRound_permuteRound seed n k _ (permuteRounds_lt seed n k index h), ih]

/-- The ascending rounds undo the descending ones, the first round last (R181). -/
theorem permuteRounds_unpermuteRounds (h : index < n) :
    permuteRounds seed n k (unpermuteRounds seed n k index) = index := by
  induction k generalizing index with
  | zero => rfl
  | succ k ih =>
    rw [unpermuteRounds, permuteRounds, ih _ (permuteRound_lt seed n k index h),
      permuteRound_permuteRound seed n k index h]

end Rounds

/-- Settles O39: the rounds in either order keep the index below `n` and undo each other. -/
theorem roundsAreInvolutionsAndPermuteInverts :
    Obligations.RoundsAreInvolutionsAndPermuteInverts := by
  intro seed n
  refine ⟨fun r i h => ?_, fun i h => ?_, fun i h => ?_⟩
  · exact ⟨permuteRound_lt seed n r i h, permuteRound_permuteRound seed n r i h⟩
  · exact ⟨permuteRounds_lt seed n 90 i h, unpermuteRounds_permuteRounds seed n 90 i h⟩
  · exact ⟨unpermuteRounds_lt seed n 90 i h, permuteRounds_unpermuteRounds seed n 90 i h⟩

/-! ### The list -/

theorem permute_lt (seed : List Byte) (n i : Nat) (h : i < n) : permute i n seed < n :=
  permuteRounds_lt seed n 90 i h

/-- No two indices of the list are taken to one (R182). -/
theorem permute_inj (seed : List Byte) (n i j : Nat) (hi : i < n) (hj : j < n)
    (h : permute i n seed = permute j n seed) : i = j := by
  rw [← unpermuteRounds_permuteRounds seed n 90 i hi,
    ← unpermuteRounds_permuteRounds seed n 90 j hj]
  exact congrArg (unpermuteRounds seed n 90) h

/-- Settles O40: the `n` values are distinct and below `n`, so they are all of `0, …, n−1`. -/
theorem permuteIsABijection : Obligations.PermuteIsABijection := by
  intro seed n _
  have hnodup : ((List.range n).map fun i => permute i n seed).Nodup :=
    List.nodup_range.map_on fun i hi j hj =>
      permute_inj seed n i j (List.mem_range.mp hi) (List.mem_range.mp hj)
  have hsubset : ((List.range n).map fun i => permute i n seed) ⊆ List.range n := by
    intro v hv
    obtain ⟨i, hi, rfl⟩ := List.mem_map.mp hv
    exact List.mem_range.mpr (permute_lt seed n i (List.mem_range.mp hi))
  exact (List.subperm_of_subset hnodup hsubset).perm_of_length_le (by rw [List.length_map])

/-- Settles O41: 0 is the only index below 1. -/
theorem singletonMapsToItself : Obligations.SingletonMapsToItself :=
  fun seed => Nat.lt_one_iff.mp (permute_lt seed 1 0 Nat.one_pos)

end Sys2Proof.Machine
end

section
/-! SUPPORT. The PERMUTE command by the outcome of its checks: the frame, the acceptance and the two
precondition failures (spec/41_permute.md R161 to R163, spec/60_exceptions.md R245). -/

namespace Sys2Proof.Machine

/-- The word of PERMUTE is its header at `CTRL` and the command code (R101, R110). -/
theorem encode_permute : encode .permute = .td48 0xC00800000001#48 :=
  (writeFrame_eq_header .ctrl 1#32 0xC008#16 rfl).symm

/-- Up to the bound of R161 the operands fit the elements that latch them (R163). -/
theorem startPermute_operands (s : State) (hi : s.index.toNat < s.listSize.toNat)
    (hl : s.listSize.toNat ≤ 2 ^ 40) :
    (startPermute s).widx.toNat = s.index.toNat ∧ (startPermute s).n.toNat = s.listSize.toNat := by
  rw [startPermute_widx, startPermute_n, BitVec.toNat_setWidth, BitVec.toNat_setWidth]
  omega

/-- Settles O25: the checks pass, and the engine stands at the start of the PERMUTE. -/
theorem permuteAcceptance : Obligations.PermuteAcceptance := by
  refine ⟨encode_permute, fun s hb hi hl => ?_⟩
  obtain ⟨hwidx, hn⟩ := startPermute_operands s hi hl
  have hword : (acceptedStatus opPermute true).word = 0x00010001#32 := by decide
  exact ⟨_, exec_permute_starts s hb (permuteError_of_valid s hi hl), hwidx, hn, hword, rfl⟩

/-- A PERMUTE one of whose checks fails is complete at once (R161, R245). -/
theorem exec_permute_fails (s : State) (e : OpError) (hb : s.status.busy = false)
    (he : permuteError s = some e) : exec .permute s = .next (failOpError e s) := by
  rw [exec, execPermute, unlessBusy_free _ _ _ hb, he]

theorem permuteError_of_index (s : State) (h : s.listSize.toNat ≤ s.index.toNat) :
    permuteError s = some .invalidIndex := by
  rcases permuteError_cases s with ⟨-, he⟩ | ⟨hi, -⟩ | ⟨hi, -⟩
  · exact he
  · omega
  · omega

theorem permuteError_of_list (s : State) (hi : s.index.toNat < s.listSize.toNat)
    (hl : 2 ^ 40 < s.listSize.toNat) : permuteError s = some .listTooLarge := by
  rcases permuteError_cases s with ⟨h, -⟩ | ⟨-, -, he⟩ | ⟨-, h, -⟩
  · omega
  · exact he
  · omega

/-- Settles O26: each failure is the first check that fails, with its code in `STATUS`. -/
theorem permutePreconditionFailures : Obligations.PermutePreconditionFailures := by
  refine fun s hb => ⟨fun h => ?_, fun hi hl => ?_⟩
  · have hword : (failedStatus .invalidIndex).word = 0x00010016#32 := by decide
    exact ⟨_, exec_permute_fails s _ hb (permuteError_of_index s h), hword, rfl⟩
  · have hword : (failedStatus .listTooLarge).word = 0x00010026#32 := by decide
    exact ⟨_, exec_permute_fails s _ hb (permuteError_of_list s hi hl), hword, rfl⟩

end Sys2Proof.Machine
end

section
/-! SUPPORT. The PIVOT step: the pivot from the first 8 bytes of the digest, the flip as the
non-negative remainder, and the position (spec/41_permute.md R164 to R166, R170, R180). -/

namespace Sys2Proof.Machine

/-! ### The flip -/

/-- The flip of the function is the remainder of R10 itself: it is never negative (R165). -/
theorem refFlip_cast (n pivot index : Nat) (h : 0 < n) :
    (refFlip n pivot index : Int) = ((pivot : Int) - index) % n :=
  Int.toNat_of_nonneg (Int.emod_nonneg _ (by omega))

/-- Settles O37: the datapath's flip is the function's. -/
theorem flipIsTheNonNegativeRemainder : Obligations.FlipIsTheNonNegativeRemainder := by
  intro pivot widx n hn hp hw
  rw [flipOf_toNat pivot widx n hn hp hw]
  exact ⟨refFlip_cast _ _ _ (by omega), refFlip_lt _ _ _ hp hw⟩

/-! ### The pivot -/

/-- The low 64 bits of an answer are the first 8 bytes of the digest, read little-endian (R78). -/
theorem digestLow64_sha256 (m : List Byte) :
    digestLow64 (sha256 m) = leNat ((sha256Bytes m).take 8) := by
  have hbytes : (List.range 8).map (digestByte (sha256 m)) = (sha256Bytes m).take 8 := by
    refine List.ext_getElem (by simp [sha256Bytes_length]) fun k _ hk => ?_
    rw [List.getElem_map, List.getElem_range, digestByte_sha256, List.getElem_take,
      List.getD_eq_getElem]
  rw [digestLow64, hbytes]

/-- The PIVOT step's pivot is the exact remainder by the list size (R164). -/
theorem pivotStep_pivot_toNat (s : State) (h0 : 0 < s.n.toNat) (hn : s.n.toNat ≤ 2 ^ 40) :
    (pivotStep s).pivot.toNat =
      leNat ((sha256Bytes (s.seedStr ++ u8 s.round.toNat)).take 8) % s.n.toNat := by
  have hpivot : (pivotStep s).pivot = pivotOf (sha256 (pivotMessage s.rnd s)) s.n := rfl
  rw [hpivot, pivotOf_toNat _ _ h0 hn, digestLow64_sha256, pivotMessage, rnd_toNat]

/-! ### The step -/

/-- Settles O31: the pivot is below the list size, which makes the flip the remainder and the
conditional subtract or add of R165. -/
theorem pivotStepComputesSteps1To3 : Obligations.PivotStepComputesSteps1To3 := by
  intro s hp hr hw hn
  have h0 : 0 < s.n.toNat := by omega
  have hpivot := pivotStep_pivot_toNat s h0 hn
  have hlt : (pivotStep s).pivot.toNat < s.n.toNat :=
    hpivot.trans_lt (Nat.mod_lt _ h0)
  have hflip : (pivotStep s).flip.toNat =
      refFlip s.n.toNat (pivotStep s).pivot.toNat s.widx.toNat :=
    flipOf_toNat _ s.widx s.n hn hlt hw
  refine ⟨pivotStep s, controllerStep_of_pivot s hp (by omega), hpivot, ?_, ?_,
    posOf_toNat _ _, rfl⟩
  · rw [hflip, refFlip_cast _ _ _ h0]
  · rw [hflip, refFlip_eq _ _ _ hlt hw]

end Sys2Proof.Machine
end

section
/-! SUPPORT. The SOURCE step: the selected bit, the swap and the count of the round, and at round 89
the completion, which delivers the permuted index (spec/41_permute.md R167 to R175). -/

namespace Sys2Proof.Machine

/-! ### Steps 4 to 7 -/

/-- The conditional swap by the bit as a number (R173). -/
theorem swapOf_eq_ite (bit : Bool) (widx flip : BitVec 40) :
    swapOf bit widx flip = if bit.toNat = 1 then flip else widx := by cases bit <;> rfl

/-- The selected bit of an answer, by the bytes of the digest (R168, R169). -/
theorem selectedBit_sha256_toNat (m : List Byte) (pos : BitVec 40) :
    (selectedBit (sha256 m) pos).toNat =
      ((sha256Bytes m).getD (pos.toNat % 256 / 8) 0#8).toNat / 2 ^ (pos.toNat % 8) % 2 := by
  rw [selectedBit_toNat, digestByte_sha256]

/-- The working index after steps 4 to 7 (R167 to R173). -/
theorem afterSource_widx_eq_ite (s : State) :
    (afterSource s).widx =
      if ((sha256Bytes (s.seedStr ++ u8 s.round.toNat ++ u32le (s.pos.toNat / 256))).getD
          (s.pos.toNat % 256 / 8) 0#8).toNat / 2 ^ (s.pos.toNat % 8) % 2 = 1
        then s.flip else s.widx := by
  have hwidx : (afterSource s).widx =
      swapOf (selectedBit (sha256 (sourceMessage s.rnd (blockIndex s.pos) s)) s.pos)
        s.widx s.flip := rfl
  rw [hwidx, swapOf_eq_ite, selectedBit_sha256_toNat, sourceMessage, rnd_toNat, blockIndex_toNat]

/-! ### The step by its round (R171) -/

theorem sourceStep_of_lt (s : State) (h : s.round.toNat < 89) :
    sourceStep s = { afterSource s with phase := .pivot } := by
  rw [sourceStep_eq, round_succ_toNat _ (by omega), Config.rounds, if_neg (by omega)]

theorem sourceStep_of_last (s : State) (h : s.round.toNat = 89) :
    sourceStep s = completePermute (afterSource s) := by
  rw [sourceStep_eq, round_succ_toNat _ (by omega), Config.rounds, if_pos (by omega)]

theorem sourceStep_widx (s : State) : (sourceStep s).widx = (afterSource s).widx := by
  rw [sourceStep_eq]
  split <;> rfl

theorem sourceStep_round (s : State) : (sourceStep s).round = s.round + 1#7 := by
  rw [sourceStep_eq]
  split <;> rfl

/-! ### `STATUS` -/

/-- A legal engine that runs a PERMUTE has the `STATUS` of its acceptance, with the round reached
(R163, R172). -/
theorem status_of_permute_phase (s : State) (hs : EngineInv s)
    (h : s.phase = .pivot ∨ s.phase = .source) :
    s.status = { acceptedStatus opPermute true with round := s.round } := by
  have hbusy : s.status.busy = true :=
    hs.controller.busy.mpr (by rcases h with h | h <;> rw [h] <;> decide)
  obtain ⟨hdone, herr, hcode⟩ := hs.registers.status.busyClear hbusy
  have hrun := hs.controller.permute h
  calc s.status = ⟨s.status.busy, s.status.done, s.status.err, s.status.errcode, s.status.round,
        s.status.op⟩ := rfl
    _ = { acceptedStatus opPermute true with round := s.round } := by
      rw [hbusy, hdone, herr, hcode, hrun.statusRound, hrun.op, acceptedStatus]

/-- `STATUS` after the last round of a legal PERMUTE (R175). -/
theorem completePermute_status_word (s : State) (hs : EngineInv s) (hp : s.phase = .source)
    (hr : s.round = 89#7) : (completePermute (afterSource s)).status.word = 0x00015A02#32 := by
  have hstatus : (completePermute (afterSource s)).status =
      completedStatus { s.status with round := s.round + 1#7 } := rfl
  rw [hstatus, status_of_permute_phase s hs (.inr hp), hr]
  decide

/-- Settles O32: steps 4 to 7 in every round, then the branch of the round. -/
theorem sourceStepComputesSteps4To7 : Obligations.SourceStepComputesSteps4To7 := by
  intro s hp hr
  refine ⟨sourceStep s, controllerStep_of_source s hp (by omega), ?_, ?_, fun hlt => ?_,
    fun hlast => ?_⟩
  · rw [sourceStep_widx, afterSource_widx_eq_ite, u8]
  · rw [sourceStep_round, round_succ_toNat _ (by omega)]
  · rw [sourceStep_of_lt s hlt]
    rfl
  · rw [sourceStep_of_last s hlast]
    exact ⟨completePermute_result_toNat _, rfl, fun hs =>
      completePermute_status_word s hs hp (BitVec.eq_of_toNat_eq hlast)⟩

/-! ### Completion -/

/-- Settles O33: by the invariant the last working index is that of all 90 rounds on the operands
that still stand in the registers. -/
theorem completionDeliversThePermutedIndex : Obligations.CompletionDeliversThePermutedIndex := by
  rintro s hs ⟨ha, hp, hr⟩
  have hlast : s.round.toNat = 89 := by rw [hr]; rfl
  have hstep : step s =
      .next (completePermute (afterSource { s with schedule := s.schedule.tail })) := by
    rw [step_of_nextAgent s .controller hs.registers.cap ha, agentStep,
      controllerStep_of_source { s with schedule := s.schedule.tail } hp
        (hlast.trans_lt (by decide)),
      sourceStep_of_last { s with schedule := s.schedule.tail } hlast]
  have hlegal := engineInv_of_arrivals s s.events s.schedule.tail hs
  refine ⟨_, hstep, ?_, completePermute_status_word _ hlegal hp hr,
    rfl, rfl, rfl, rfl, rfl, rfl, rfl, rfl⟩
  rw [completePermute_result_toNat, afterSource_widx_rounds _ (hlegal.controller.permute (.inr hp))
    (hlegal.controller.prepared hp), hlast, permute]
  rfl

end Sys2Proof.Machine
end

section
/-! SUPPORT. The run of one PERMUTE step by step: two controller steps a round, and `RESULT` as it
was until the last of them (spec/41_permute.md R172, R174, log entry 4). -/

namespace Sys2Proof.Machine

/-- The phase of a PERMUTE after its acceptance and `k` controller steps (R174). -/
def phaseAfter (k : Nat) : Phase := if k % 2 = 0 then .pivot else .source

theorem phaseAfter_even (k : Nat) (h : k % 2 = 0) : phaseAfter k = .pivot := if_pos h

theorem phaseAfter_odd (k : Nat) (h : k % 2 = 1) : phaseAfter k = .source :=
  if_neg (by omega)

section Run

variable {s t u : State} {k : Nat}

/-- The acceptance keeps `RESULT`: the arrival is not a reset (R163). -/
theorem AwaitsPermute.step_result (h : AwaitsPermute s) (hstep : step s = .next t) :
    t.result = s.result := by
  by_contra hne
  rcases resultChangesOnlyAtCompletion s t hstep hne with ⟨-, hp, -⟩ | ⟨-, a, ha, hr⟩ |
    ⟨-, a, ha, hr⟩
  · rw [h.phase] at hp; cases hp
  all_goals
    rw [h.events] at ha
    cases ha
    cases hr

/-- A running PERMUTE keeps `RESULT` through every step but its last: the controller takes the step
(R171, R175). -/
theorem RunsPermute.step_result (h : RunsPermute s (k / 2) (phaseAfter k) t) (hk : k < 179)
    (hstep : step t = .next u) : u.result = t.result := by
  have hphase : t.phase ≠ .idle := by
    rw [h.phase, phaseAfter]
    split <;> decide
  have hagent := nextAgent_of_running t h.schedule hphase
  by_contra hne
  rcases resultChangesOnlyAtCompletion t u hstep hne with ⟨-, hp, hr⟩ | ⟨ha, -⟩ | ⟨ha, -⟩
  · have hround : k / 2 = 89 := by rw [← h.round, hr]; rfl
    rw [h.phase, phaseAfter_even k (by omega)] at hp
    cases hp
  · rw [hagent] at ha; cases ha
  · rw [hagent] at ha; cases ha

/-- PIVOT leads to SOURCE of its round, and SOURCE to PIVOT of the next (R170, R171). -/
theorem RunsPermute.step_next (h : RunsPermute s (k / 2) (phaseAfter k) t) (hk : k < 179) :
    ∃ u, step t = .next u ∧ RunsPermute s ((k + 1) / 2) (phaseAfter (k + 1)) u := by
  rcases Nat.mod_two_eq_zero_or_one k with hmod | hmod
  · rw [phaseAfter_even k hmod] at h
    rw [phaseAfter_odd (k + 1) (by omega), show (k + 1) / 2 = k / 2 by omega]
    exact h.step_pivot
  · rw [phaseAfter_odd k hmod] at h
    rw [phaseAfter_even (k + 1) (by omega), show (k + 1) / 2 = k / 2 + 1 by omega]
    exact h.step_nextRound (by omega)

/-- The acceptance and `k` controller steps lead to the phase and round of R174, with the old
`RESULT`. -/
theorem run_to_controllerStep (h : AwaitsPermute s) (hk : k < 180) :
    ∃ u, Host.Core.run Sys2Proof.core (k + 1) s = .next u ∧
      RunsPermute s (k / 2) (phaseAfter k) u ∧ u.result = s.result := by
  induction k with
  | zero =>
    obtain ⟨t, hstep, ht⟩ := step_of_awaitsPermute s h
    exact ⟨t, run_next 0 s s t rfl hstep, ht, h.step_result hstep⟩
  | succ k ih =>
    obtain ⟨t, hrun, ht, hresult⟩ := ih (by omega)
    obtain ⟨u, hstep, hu⟩ := ht.step_next (by omega)
    exact ⟨u, run_next _ s t u hrun hstep, hu, (ht.step_result (by omega) hstep).trans hresult⟩

end Run

/-- Settles O34: `run_to_controllerStep` up to the SOURCE step of round 89, and O33 for it. -/
theorem permuteTakes180Steps : Obligations.PermuteTakes180Steps := by
  intro s hs hp hsch he hi hl
  have h : AwaitsPermute s := ⟨hs, hp, hsch, he, hi, hl⟩
  refine ⟨fun k hk => ?_, ?_⟩
  · obtain ⟨u, hrun, hu, hresult⟩ := run_to_controllerStep h hk
    refine ⟨u, hrun, hu.phase, hu.round, ?_, ?_, ?_, hresult⟩ <;> rw [hu.status]
    · exact hu.round
    · rfl
    · rfl
  · obtain ⟨v, hrun, hv, -⟩ := run_to_controllerStep (k := 179) h (by decide)
    have hlast : completesPermute v :=
      ⟨nextAgent_of_running v hv.schedule (by rw [hv.phase]; decide), hv.phase,
        BitVec.eq_of_toNat_eq hv.round⟩
    obtain ⟨t, hstep, hresult, hword, hpend, hidle, -⟩ :=
      completionDeliversThePermutedIndex v hv.legal hlast
    refine ⟨t, run_next 180 s v t hrun hstep, ?_, hword, hpend, hidle⟩
    rw [hresult, hv.index, hv.listSize, hv.seedStr]

end Sys2Proof.Machine
end

section
/-! SUPPORT. A transaction as its descriptor: the fields that pack into a `TD48` word are those the
decoder reads from it, so performing the word is the access function at these fields
(spec/42_host_access.md R200, R208). -/

namespace Sys2Proof.Machine

/-- A descriptor that passes the three checks of R102 spells a transaction. -/
theorem descriptorError_eq_none (d : Descriptor) (hsz : d.sz ≠ 3#2) (hrsv : d.rsv = false)
    (hread : d.w = false → d.data = 0#32) : descriptorError d = none := by
  refine Option.eq_none_iff_forall_ne_some.mpr fun e he => ?_
  rcases (descriptorError_some_iff d).mp ⟨e, he⟩ with h | h | ⟨hw, hdata⟩
  · exact hsz h
  · rw [hrsv] at h; cases h
  · exact hdata (hread hw)

/-- A packed descriptor is decoded by its fields. -/
theorem decode_descriptorBits (cap : Nat) (d : Descriptor) :
    decode cap (.td48 (descriptorBits d)) = decodeDescriptor cap d := by
  rw [decode, descriptorOfBits_descriptorBits]

/-- Settles O12: the word packs the fields of a descriptor that spells a transaction, and
`runDecoded_decodeDescriptor` says that each line of R105 has the effect of the check of R200 that
stands in its place. -/
theorem transactionsPerformTheAccessFunction :
    Obligations.TransactionsPerformTheAccessFunction := by
  intro s w sz off data hcap hsz hread
  have hword : BitVec.ofBool w ++ sz ++ 0#1 ++ off ++ data =
      descriptorBits ⟨w, sz, false, off, data⟩ := rfl
  rw [hword, decode_descriptorBits]
  exact runDecoded_decodeDescriptor _ s hcap (descriptorError_eq_none _ hsz rfl hread)

end Sys2Proof.Machine
end

section
/-! SUPPORT. The register writes by their checks, in the order of R200: where a check fails the
access leaves the rejected state, and where all pass the register takes the data
(spec/42_host_access.md R202 to R205). -/

namespace Sys2Proof.Machine

/-- A write that finds the engine busy leaves the rejected state of cause 5 (R200, R241). -/
theorem unlessBusy_rejected (off : Offset) (s t : State) (h : s.status.busy = true) :
    unlessBusy off s t = rejectedState 5#3 off true s :=
  (unlessBusy_busy off s t h).trans (raiseBusError_eq .busy off true s)

/-- Where a check fails, the access leaves the rejected state (R200, R240). -/
theorem rejected_of_check_fails {check : Prop} [Decidable check] (c : BusCause) (off : Offset)
    (w : Bool) (s t : State) (h : ¬ check) :
    (if check then t else raiseBusError c off w s) = rejectedState (causeCode c) off w s :=
  (if_neg h).trans (raiseBusError_eq c off w s)

/-! ### `INDEX` and `LIST_SIZE` -/

/-- Settles O18: BUSY is the only check of an operand write, and it decides whether the half register
takes the data. -/
theorem operandWritesSetTheirHalf : Obligations.OperandWritesSetTheirHalf := by
  intro s data
  refine ⟨fun hfree => ?_, fun hbusy => ?_,
    (writeFrame_eq_header .indexLo data 0xC010#16 rfl).symm,
    (writeFrame_eq_header .indexHi data 0xC014#16 rfl).symm,
    (writeFrame_eq_header .listSizeLo data 0xC018#16 rfl).symm,
    (writeFrame_eq_header .listSizeHi data 0xC01C#16 rfl).symm⟩
  · exact ⟨exec_wrIndexLo_of_free s data hfree, exec_wrIndexHi_of_free s data hfree,
      exec_wrListSizeLo_of_free s data hfree, exec_wrListSizeHi_of_free s data hfree⟩
  · have hrejected (r : Reg) (t : State) : Host.Outcome.next (unlessBusy (regOffset r) s t) =
        (.next (rejectedState 5#3 (regOffset r) true s) : Host.Outcome State Fault Refusal) :=
      congrArg Host.Outcome.next (unlessBusy_rejected _ s t hbusy)
    exact ⟨hrejected .indexLo _, hrejected .indexHi _, hrejected .listSizeLo _,
      hrejected .listSizeHi _⟩

/-! ### `SEED_LEN` -/

/-- Past the check of its value, a `SEED_LEN` write is a protected write (R204). -/
theorem exec_wrSeedLen_of_legal (data : Word) (s : State)
    (h : legalSeedLen s.seedCap data = true) :
    exec (.wrSeedLen data) s =
      .next (unlessBusy 0x020#12 s (okWrite { s with seedLen := data.extractLsb' 0 11 })) :=
  congrArg Host.Outcome.next (if_pos h)

/-- A `SEED_LEN` value that is not legal is rejected before BUSY is looked at (R204). -/
theorem exec_wrSeedLen_of_illegal (data : Word) (s : State)
    (h : ¬ legalSeedLen s.seedCap data = true) :
    exec (.wrSeedLen data) s = .next (rejectedState 4#3 0x020#12 true s) :=
  congrArg Host.Outcome.next (rejected_of_check_fails .illegalValue _ true s _ h)

/-- A value below 2^11 is its low 11 bits. -/
theorem extract_seedLen_toNat (data : Word) (h : data.toNat < 2 ^ 11) :
    (data.extractLsb' 0 11).toNat = data.toNat := by
  rw [toNat_extract, Nat.pow_zero, Nat.div_one, Nat.mod_eq_of_lt h]

/-- Settles O20: with `SEED_CAP` below 2^11 the legal values are those up to `SEED_CAP`, and their low
11 bits are the value. -/
theorem seedLenWriteSetsTheLength : Obligations.SeedLenWriteSetsTheLength := by
  intro s data hcap
  have hlegal : legalSeedLen s.seedCap data = true ↔ data.toNat ≤ s.seedCap := by
    rw [legalSeedLen_iff]; omega
  refine ⟨fun hfree hle => ?_, fun hgt => ?_, fun hbusy hle => ?_,
    (writeFrame_eq_header .seedLen data 0xC020#16 rfl).symm⟩
  · have hlen := extract_seedLen_toNat data (by omega)
    refine ⟨okWrite { s with seedLen := data.extractLsb' 0 11 }, ?_, hlen, ?_, rfl⟩
    · rw [exec_wrSeedLen_of_legal data s (hlegal.mpr hle), unlessBusy_free _ _ _ hfree]
    · exact congrArg (s.seed.take ·) hlen
  · exact exec_wrSeedLen_of_illegal data s (by rw [hlegal]; omega)
  · rw [exec_wrSeedLen_of_legal data s (hlegal.mpr hle), unlessBusy_rejected _ _ _ hbusy]

/-! ### The seed buffer -/

/-- The write of a mapped seed word is a protected write (R205). -/
theorem exec_wrSeed_of_mapped (j : BitVec 8) (data : Word) (s : State)
    (h : 4 * j.toNat < s.seedCap) :
    exec (.wrSeed j data) s =
      .next (unlessBusy (regOffset (.seed j)) s (okWrite (writeSeedWord j data s))) :=
  congrArg Host.Outcome.next (if_pos ((seedMapped_iff s.seedCap j).mpr h))

/-- The write of a seed word at or above `SEED_CAP` is rejected as UNMAPPED (R35, R205). -/
theorem exec_wrSeed_of_unmapped (j : BitVec 8) (data : Word) (s : State)
    (h : s.seedCap ≤ 4 * j.toNat) :
    exec (.wrSeed j data) s = .next (rejectedState 2#3 (regOffset (.seed j)) true s) := by
  have hunmapped : ¬ seedMapped s.seedCap j = true := by rw [seedMapped_iff]; omega
  exact congrArg Host.Outcome.next (rejected_of_check_fails .unmapped _ true s _ hunmapped)

/-- The frame of a seed write: its header is 0xC100 plus the word's offset in the window (R110). -/
theorem encode_wrSeed (j : BitVec 8) (data : Word) :
    encode (.wrSeed j data) = .td48 (BitVec.ofNat 16 (0xC100 + 4 * j.toNat) ++ data) := by
  refine (writeFrame_eq_header (.seed j) data _ ?_).symm
  have := j.isLt
  rw [seed_offset_toNat, BitVec.toNat_ofNat]
  omega

section WrittenWord

variable (j : BitVec 8) (data : Word) (s : State) (hfits : 4 * j.toNat + 4 ≤ s.seed.length)
include hfits

/-- Byte `k` of the written word is lane `k` of the data (R205). -/
theorem readSeed_writeSeedWord_lane (k : Nat) (hk : k < 4) :
    readSeed (writeSeedWord j data s) (4 * j.toNat + k) = lane data k := by
  rw [readSeed_writeSeedWord j data s hfits, if_pos (by omega), Nat.add_sub_cancel_left]

/-- A byte outside the written word keeps its value (R205). -/
theorem readSeed_writeSeedWord_outside (a : Nat)
    (ha : a < 4 * j.toNat ∨ 4 * j.toNat + 4 ≤ a) :
    readSeed (writeSeedWord j data s) a = readSeed s a := by
  rw [readSeed_writeSeedWord j data s hfits, if_neg (by omega)]

/-- A seed word reads back as written (R34, R205). -/
theorem seedWord_writeSeedWord : seedWord (writeSeedWord j data s) j = data := by
  have hlane := readSeed_writeSeedWord_lane j data s hfits
  have hlane0 : readSeed (writeSeedWord j data s) (4 * j.toNat) = lane data 0 :=
    hlane 0 (by decide)
  rw [seedWord, hlane0, hlane 1 (by decide), hlane 2 (by decide), hlane 3 (by decide),
    ofLanes_lanes]

end WrittenWord

/-- A word above `SEED_LEN` is no part of `SEEDSTR` (R28, R34). -/
theorem seedStr_writeSeedWord (j : BitVec 8) (data : Word) (s : State)
    (h : s.seedLen.toNat ≤ 4 * j.toNat) : (writeSeedWord j data s).seedStr = s.seedStr := by
  simp only [State.seedStr, writeSeedWord]
  rw [List.take_set_of_le (by omega), List.take_set_of_le (by omega),
    List.take_set_of_le (by omega), List.take_set_of_le h]

/-- Settles O21: the write puts the lanes of the data in the bytes of the word, which lie in the
buffer since `SEED_CAP` is a multiple of 4. -/
theorem seedWriteSetsFourBytes : Obligations.SeedWriteSetsFourBytes := by
  intro s j data hcap hlen
  obtain ⟨hmod, -, -⟩ := (legalSeedCap_iff s.seedCap).mp hcap
  refine ⟨fun hj hfree => ?_, fun hj hbusy => ?_, exec_wrSeed_of_unmapped j data s,
    encode_wrSeed j data⟩
  · have hfits : 4 * j.toNat + 4 ≤ s.seed.length := by omega
    refine ⟨okWrite (writeSeedWord j data s), ?_, fun k hk => ?_,
      readSeed_writeSeedWord_outside j data s hfits, seedWord_writeSeedWord j data s hfits,
      (writeSeedWord_length j data s).trans hlen, seedStr_writeSeedWord j data s, rfl⟩
    · rw [exec_wrSeed_of_mapped j data s hj, unlessBusy_free _ _ _ hfree]
    · exact (congrArg BitVec.toNat (readSeed_writeSeedWord_lane j data s hfits k hk)).trans
        (lane_toNat data k)
  · rw [exec_wrSeed_of_mapped j data s hj, unlessBusy_rejected _ _ _ hbusy]
    rfl

end Sys2Proof.Machine
end

section
/-! SUPPORT. The accesses that are never BUSY: the register reads, the two interrupt registers, NOP
and SOFT_RESET (spec/42_host_access.md R201, R206, R207, R211, R212). -/

namespace Sys2Proof.Machine

/-! ### Reads -/

/-- Every register is mapped but the seed words at or above `SEED_CAP` (R35). -/
theorem mapped_iff (cap : Nat) (r : Reg) :
    r.mapped cap = true ↔ ∀ j : BitVec 8, r = .seed j → 4 * j.toNat < cap := by
  cases r with
  | seed j => simp [Reg.mapped, seedMapped_iff]
  | _ => simp [Reg.mapped]

theorem exec_rd_of_mapped (r : Reg) (s : State) (h : r.mapped s.seedCap = true) :
    exec (.rd r) s = .next (respond (.read (readValue r s) .okay) s) :=
  congrArg Host.Outcome.next (if_pos h)

/-- A read of an unmapped register is rejected, with the direction read (R35, R241). -/
theorem exec_rd_of_unmapped (r : Reg) (s : State) (h : ¬ r.mapped s.seedCap = true) :
    exec (.rd r) s = .next (rejectedState 2#3 (regOffset r) false s) :=
  congrArg Host.Outcome.next (rejected_of_check_fails .unmapped _ false s _ h)

/-- Settles O16: the one check of a read is whether its register is mapped. -/
theorem readsReturnTheRegister : Obligations.ReadsReturnTheRegister := by
  intro s r
  refine ⟨fun h => exec_rd_of_mapped r s ((mapped_iff s.seedCap r).mpr h), ?_⟩
  rintro j rfl hj
  have hunmapped : ¬ (Reg.seed j).mapped s.seedCap = true := by
    rw [Reg.mapped, seedMapped_iff]; omega
  exact exec_rd_of_unmapped (.seed j) s hunmapped

/-! ### The interrupt registers -/

theorem exec_wrIrqEn_of_legal (data : Word) (s : State) (h : legalFlag data = true) :
    exec (.wrIrqEn data) s = .next (okWrite { s with irqEn := data.getLsbD 0 }) :=
  congrArg Host.Outcome.next (if_pos h)

theorem exec_wrIrqEn_of_illegal (data : Word) (s : State) (h : ¬ legalFlag data = true) :
    exec (.wrIrqEn data) s = .next (rejectedState 4#3 0x02C#12 true s) :=
  congrArg Host.Outcome.next (rejected_of_check_fails .illegalValue _ true s _ h)

theorem exec_wrIrqStatus_of_legal (data : Word) (s : State) (h : legalFlag data = true) :
    exec (.wrIrqStatus data) s =
      .next (okWrite { s with irqPend := if data.getLsbD 0 then false else s.irqPend }) :=
  congrArg Host.Outcome.next (if_pos h)

theorem exec_wrIrqStatus_of_illegal (data : Word) (s : State) (h : ¬ legalFlag data = true) :
    exec (.wrIrqStatus data) s = .next (rejectedState 4#3 0x030#12 true s) :=
  congrArg Host.Outcome.next (rejected_of_check_fails .illegalValue _ true s _ h)

/-- Settles O22: the legal values are 0 and 1, and no check looks at BUSY. -/
theorem interruptRegisterWrites : Obligations.InterruptRegisterWrites := by
  intro s data
  have hillegal (h : 2 ≤ data.toNat) : ¬ legalFlag data = true := by
    rw [legalFlag_iff]; omega
  refine ⟨?_, ?_, fun h => exec_wrIrqEn_of_illegal data s (hillegal h), ?_, ?_,
    fun h => exec_wrIrqStatus_of_illegal data s (hillegal h),
    (writeFrame_eq_header .irqEn data 0xC02C#16 rfl).symm,
    (writeFrame_eq_header .irqStatus data 0xC030#16 rfl).symm⟩
  · rintro rfl; exact exec_wrIrqEn_of_legal 0#32 s rfl
  · rintro rfl; exact exec_wrIrqEn_of_legal 1#32 s rfl
  · rintro rfl; exact exec_wrIrqStatus_of_legal 0#32 s rfl
  · rintro rfl; exact exec_wrIrqStatus_of_legal 1#32 s rfl

/-! ### NOP and SOFT_RESET -/

/-- Settles O24: NOP is the OKAY response alone. -/
theorem nopChangesNothing : Obligations.NopChangesNothing :=
  ⟨(writeFrame_eq_header .ctrl 0#32 0xC008#16 rfl).symm, fun _ => rfl⟩

/-- Settles O11: SOFT_RESET is the state after reset with the seed buffer put back, and the OKAY
response. -/
theorem softResetKeepsOnlyTheSeed : Obligations.SoftResetKeepsOnlyTheSeed :=
  ⟨(writeFrame_eq_header .ctrl 3#32 0xC008#16 rfl).symm, fun _ => rfl⟩

end Sys2Proof.Machine
end

section
/-! SUPPORT. The rejections while an operation runs, and the interrupt output after each access that
writes one of its two registers (spec/60_exceptions.md R241, R251, spec/70_reset_and_hazards.md
R290, R291). -/

namespace Sys2Proof.Machine

/-! ### BUSY -/

/-- A PERMUTE that finds the engine busy is rejected, whatever its operands (R163, R241). -/
theorem exec_permute_of_busy (s : State) (h : s.status.busy = true) :
    exec .permute s = .next (rejectedState 5#3 0x008#12 true s) :=
  congrArg Host.Outcome.next (unlessBusy_rejected _ s _ h)

/-- Settles O15: BUSY is the last check of each of these accesses, and the one that fails. -/
theorem busyRejectsOperandsAndCommands : Obligations.BusyRejectsOperandsAndCommands := by
  intro s data hbusy
  have hrejected (off : Offset) (t : State) : Host.Outcome.next (unlessBusy off s t) =
      (.next (rejectedState 5#3 off true s) : Host.Outcome State Fault Refusal) :=
    congrArg Host.Outcome.next (unlessBusy_rejected off s t hbusy)
  refine ⟨hrejected _ _, hrejected _ _, hrejected _ _, hrejected _ _, fun hlen hcap => ?_,
    fun j hj => ?_, exec_permute_of_busy s hbusy, exec_hash_of_busy s hbusy⟩
  · rw [exec_wrSeedLen_of_legal data s ((legalSeedLen_iff _ _).mpr ⟨hlen, hcap⟩), hrejected]
  · rw [exec_wrSeed_of_mapped j data s hj, hrejected, regOffset]

/-! ### `irq` -/

/-- Settles O51: each access sets `EN` or `PEND` to a constant or keeps both. -/
theorem irqFollowsItsRegisters : Obligations.IrqFollowsItsRegisters := fun s =>
  ⟨rfl, ⟨_, exec_wrIrqEn_of_legal 1#32 s rfl, Bool.true_and s.irqPend⟩,
    ⟨_, exec_wrIrqEn_of_legal 0#32 s rfl, Bool.false_and s.irqPend⟩,
    ⟨_, exec_wrIrqStatus_of_legal 1#32 s rfl, Bool.and_false s.irqEn⟩,
    ⟨_, exec_wrIrqStatus_of_legal 0#32 s rfl, rfl⟩, ⟨_, rfl, rfl⟩⟩

end Sys2Proof.Machine
end

section
/-! SUPPORT. The causes of a bus error in the order of their codes: for each cause, an access to
which it applies and no earlier one does is rejected with it, and an access to which none applies is
accepted (spec/60_exceptions.md R240 to R242). -/

namespace Sys2Proof.Machine

/-- `c` applies to the transaction and no cause with a lower code does (R241). -/
def FirstCause (c : BusCause) (d : Descriptor) (s : State) : Prop :=
  causeApplies c d s ∧
    ∀ b : BusCause, (causeCode b).toNat < (causeCode c).toNat → ¬ causeApplies b d s

/-- `t` answers the transaction with OKAY, and `BUSERR` is as in `s` or cleared by SOFT_RESET. -/
structure Accepted (d : Descriptor) (s t : State) : Prop where
  response : (∃ x, d.w = false ∧ t.busResp = some (.read x .okay)) ∨
    (d.w = true ∧ t.busResp = some (.write .okay))
  busErr : t.busErr = s.busErr ∨ (d.off = 0x008#12 ∧ d.data = 3#32 ∧ t.busErr = BusErr.zero)

/-- Where any cause applies, one is first. -/
theorem firstCause_or_none (d : Descriptor) (s : State) :
    (∃ c, FirstCause c d s) ∨ ∀ c, ¬ causeApplies c d s := by
  by_cases h : ∃ c, causeApplies c d s
  · obtain ⟨c, hc, hmin⟩ :=
      (measure fun c => (causeCode c).toNat).wf.has_min {c | causeApplies c d s} h
    exact .inl ⟨c, hc, fun b hlt hb => hmin b hb hlt⟩
  · exact .inr (not_exists.mp h)

/-! ### The register that an access reaches -/

/-- An access that is neither MISALIGNED nor UNMAPPED is a 4-byte access to a mapped register (R20,
R35, R73). -/
theorem reaches_register (d : Descriptor) (s : State)
    (hcap : Config.legalSeedCap s.seedCap = true) (hmis : ¬ causeApplies .misaligned d s)
    (hun : ¬ causeApplies .unmapped d s) :
    ∃ (r : Reg) (w rsv : Bool) (data : Word),
      r.mapped s.seedCap = true ∧ d = ⟨w, 2#2, rsv, regOffset r, data⟩ := by
  obtain ⟨hsz, hmod⟩ : d.sz = 2#2 ∧ d.off.toNat % 4 = 0 := not_not.mp hmis
  cases hr : regOfOffset s.seedCap d.off with
  | none => exact absurd ⟨⟨hsz, hmod⟩, accessUnmapped_of_none _ _ hmod hr⟩ hun
  | some r =>
    obtain ⟨hoff, hmapped⟩ := regOfOffset_some _ _ r hcap hmod hr
    exact ⟨r, d.w, d.rsv, d.data, hmapped, Descriptor.ext' rfl hsz rfl hoff.symm rfl⟩

/-- Only `CTRL` stands at the offset of `CTRL` (R20). -/
theorem eq_ctrl_of_offset (cap : Nat) (r : Reg) (h : r.mapped cap = true)
    (hoff : (regOffset r).toNat = 0x008) : r = .ctrl := by
  have hr := regOfOffset_regOffset cap r h
  have hctrl : regOffset r = regOffset .ctrl := BitVec.eq_of_toNat_eq hoff
  rw [hctrl, regOfOffset_regOffset cap .ctrl rfl] at hr
  exact (Option.some.inj hr).symm

/-! ### Commands -/

theorem access_command (data : Word) (s : State) :
    access (regOffset .ctrl) 4 true data s = accessCommand data s :=
  access_write .ctrl data s rfl

/-- A `CTRL` value above the four commands is rejected (R101, R208). -/
theorem accessCommand_of_illegal (data : Word) (s : State) (h : 4 ≤ data.toNat) :
    accessCommand data s = .next (raiseBusError .illegalValue 0x008#12 true s) := by
  rw [accessCommand, if_pos (by omega)]

/-- PERMUTE and HASH are rejected while an operation runs (R208, R241). -/
theorem accessCommand_of_busy (data : Word) (s : State) (h : data.toNat = 1 ∨ data.toNat = 2)
    (hbusy : s.status.busy = true) :
    accessCommand data s = .next (raiseBusError .busy 0x008#12 true s) := by
  have hcommand (t : State) : Host.Outcome.next (unlessBusy 0x008#12 s t) =
      (.next (raiseBusError .busy 0x008#12 true s) : Host.Outcome State Fault Refusal) :=
    congrArg Host.Outcome.next (unlessBusy_busy _ s t hbusy)
  rcases h with h | h
  · obtain rfl : data = 1#32 := BitVec.eq_of_toNat_eq h
    exact hcommand _
  · obtain rfl : data = 2#32 := BitVec.eq_of_toNat_eq h
    exact hcommand _

/-- A command that is not rejected has the response OKAY, a PERMUTE that fails included, and only
SOFT_RESET touches `BUSERR` (R206 to R208, R245). -/
theorem accessCommand_of_accepted (data : Word) (s : State) (h : data.toNat < 4)
    (hfree : data.toNat = 1 ∨ data.toNat = 2 → s.status.busy = false) :
    ∃ t, accessCommand data s = .next t ∧ t.busResp = some (.write .okay) ∧
      (t.busErr = s.busErr ∨ (data = 3#32 ∧ t.busErr = BusErr.zero)) := by
  obtain ⟨k, hk, rfl⟩ : ∃ k, k < 4 ∧ data = BitVec.ofNat 32 k :=
    ⟨data.toNat, h, (BitVec.ofNat_toNat 32 data).symm⟩
  interval_cases k
  · exact ⟨okWrite s, rfl, rfl, .inl rfl⟩
  · have hb := hfree (.inl rfl)
    cases he : permuteError s with
    | some e => exact ⟨_, exec_permute_fails s e hb he, rfl, .inl rfl⟩
    | none => exact ⟨_, exec_permute_starts s hb he, rfl, .inl rfl⟩
  · exact ⟨_, exec_hash_of_free s (hfree (.inr rfl)), rfl, .inl rfl⟩
  · exact ⟨okWrite (clearAllButSeed s), rfl, rfl, .inr ⟨rfl, rfl⟩⟩

/-! ### Writes that are no command -/

theorem accessWrite_busErr (off : Nat) (data : Word) (s : State) :
    (accessWrite off data s).busErr = s.busErr := by
  unfold accessWrite
  split_ifs <;> rfl

/-- What a write to which READ_ONLY does not apply passes (R200, R241). -/
theorem accessReadOnly_of_not_readOnly (r : Reg) (rsv : Bool) (data : Word) (s : State)
    (h : ¬ causeApplies .readOnly ⟨true, 2#2, rsv, regOffset r, data⟩ s) :
    accessReadOnly (regOffset r).toNat = false :=
  Bool.eq_false_iff.mpr fun hro => h ⟨⟨rfl, regOffset_mod_four r⟩, rfl, hro⟩

/-- What a write to which ILLEGAL_VALUE does not apply passes (R200, R241). -/
theorem accessLegal_of_not_illegalValue (r : Reg) (rsv : Bool) (data : Word) (s : State)
    (h : ¬ causeApplies .illegalValue ⟨true, 2#2, rsv, regOffset r, data⟩ s) :
    accessLegal s.seedCap (regOffset r).toNat data = true :=
  Bool.of_not_eq_false fun hl => h ⟨⟨rfl, regOffset_mod_four r⟩, rfl, .inl hl⟩

/-- Past the checks a write is done (R200). -/
theorem access_write_accepted (r : Reg) (data : Word) (s : State) (h : r.mapped s.seedCap = true)
    (hctrl : (regOffset r).toNat ≠ 0x008) (hro : accessReadOnly (regOffset r).toNat = false)
    (hl : accessLegal s.seedCap (regOffset r).toNat data = true)
    (hfree : accessProtected s.seedCap (regOffset r).toNat = true → s.status.busy = false) :
    access (regOffset r) 4 true data s =
      .next (okWrite (accessWrite (regOffset r).toNat data s)) := by
  cases hp : accessProtected s.seedCap (regOffset r).toNat with
  | false => exact access_write_unprotected r data s h hctrl hro hl hp
  | true =>
    rw [access_write_protected r data s h hctrl hro hl hp, unlessBusy_free _ _ _ (hfree hp)]

/-! ### The access by the first cause that applies -/

section Descriptor

variable (d : Descriptor) (s : State)

theorem access_of_misaligned (h : causeApplies .misaligned d s) :
    access d.off (2 ^ d.sz.toNat) d.w d.data s = .next (raiseBusError .misaligned d.off d.w s) := by
  have hbad : ¬ (d.sz = 2#2 ∧ d.off.toNat % 4 = 0) := h
  rw [← two_pow_size_eq_four_iff] at hbad
  exact access_misaligned _ _ _ _ s (by omega)

theorem access_of_unmapped (h : causeApplies .unmapped d s) :
    access d.off (2 ^ d.sz.toNat) d.w d.data s = .next (raiseBusError .unmapped d.off d.w s) := by
  obtain ⟨⟨hsz, hoff⟩, hunmapped⟩ := h
  rw [(two_pow_size_eq_four_iff d.sz).mpr hsz]
  exact access_unmapped _ _ _ s hoff hunmapped

variable (hcap : Config.legalSeedCap s.seedCap = true) (hmis : ¬ causeApplies .misaligned d s)
  (hun : ¬ causeApplies .unmapped d s)
include hcap hmis hun

theorem access_of_readOnly (h : causeApplies .readOnly d s) :
    access d.off (2 ^ d.sz.toNat) d.w d.data s = .next (raiseBusError .readOnly d.off d.w s) := by
  obtain ⟨r, w, rsv, data, hmapped, rfl⟩ := reaches_register d s hcap hmis hun
  obtain ⟨-, hw, hro⟩ := h
  obtain rfl : w = true := hw
  have hlisted := (accessReadOnly_iff (regOffset r).toNat).mp hro
  exact access_write_readOnly r data s hmapped (by omega) hro

variable (hro : ¬ causeApplies .readOnly d s)
include hro

theorem access_of_illegalValue (h : causeApplies .illegalValue d s) :
    access d.off (2 ^ d.sz.toNat) d.w d.data s =
      .next (raiseBusError .illegalValue d.off d.w s) := by
  obtain ⟨r, w, rsv, data, hmapped, rfl⟩ := reaches_register d s hcap hmis hun
  obtain ⟨-, hw, hillegal⟩ := h
  obtain rfl : w = true := hw
  have hro' := accessReadOnly_of_not_readOnly r rsv data s hro
  rcases hillegal with hl | ⟨hctrl, hdata⟩
  · have hctrl : (regOffset r).toNat ≠ 0x008 := fun h8 => by
      rw [h8] at hl; cases hl
    exact access_write_illegal r data s hmapped hctrl hro' hl
  · obtain rfl := eq_ctrl_of_offset s.seedCap r hmapped hctrl
    exact (access_command data s).trans (accessCommand_of_illegal data s hdata)

variable (hillegal : ¬ causeApplies .illegalValue d s)
include hillegal

theorem access_of_busy (h : causeApplies .busy d s) :
    access d.off (2 ^ d.sz.toNat) d.w d.data s = .next (raiseBusError .busy d.off d.w s) := by
  obtain ⟨r, w, rsv, data, hmapped, rfl⟩ := reaches_register d s hcap hmis hun
  obtain ⟨-, hw, hbusy, hprotected⟩ := h
  obtain rfl : w = true := hw
  have hro' := accessReadOnly_of_not_readOnly r rsv data s hro
  have hl := accessLegal_of_not_illegalValue r rsv data s hillegal
  rcases hprotected with hp | ⟨hctrl, hdata⟩
  · have hlisted := (accessProtected_iff s.seedCap (regOffset r).toNat).mp hp
    refine (access_write_protected r data s hmapped (by omega) hro' hl hp).trans ?_
    rw [unlessBusy_busy _ _ _ hbusy]
  · obtain rfl := eq_ctrl_of_offset s.seedCap r hmapped hctrl
    exact (access_command data s).trans (accessCommand_of_busy data s hdata hbusy)

/-- An access to which no cause applies is accepted (R200, R241). -/
theorem access_of_no_cause (h : ¬ causeApplies .busy d s) :
    ∃ t, access d.off (2 ^ d.sz.toNat) d.w d.data s = .next t ∧ Accepted d s t := by
  obtain ⟨r, w, rsv, data, hmapped, rfl⟩ := reaches_register d s hcap hmis hun
  cases w with
  | false => exact ⟨_, access_read r data s hmapped, .inl ⟨_, rfl, rfl⟩, .inl rfl⟩
  | true =>
    have haligned : (2#2 = 2#2) ∧ (regOffset r).toNat % 4 = 0 := ⟨rfl, regOffset_mod_four r⟩
    by_cases hctrl : (regOffset r).toNat = 0x008
    · obtain rfl := eq_ctrl_of_offset s.seedCap r hmapped hctrl
      have hdata : data.toNat < 4 :=
        Nat.lt_of_not_le fun h4 => hillegal ⟨haligned, rfl, .inr ⟨rfl, h4⟩⟩
      have hfree (hcommand : data.toNat = 1 ∨ data.toNat = 2) : s.status.busy = false :=
        Bool.eq_false_iff.mpr fun hbusy => h ⟨haligned, rfl, hbusy, .inr ⟨rfl, hcommand⟩⟩
      obtain ⟨t, ht, hresp, herr⟩ := accessCommand_of_accepted data s hdata hfree
      exact ⟨t, (access_command data s).trans ht, .inr ⟨rfl, hresp⟩,
        herr.imp_right fun herr => ⟨rfl, herr⟩⟩
    · have hro' := accessReadOnly_of_not_readOnly r rsv data s hro
      have hl := accessLegal_of_not_illegalValue r rsv data s hillegal
      have hfree (hp : accessProtected s.seedCap (regOffset r).toNat = true) :
          s.status.busy = false :=
        Bool.eq_false_iff.mpr fun hbusy => h ⟨haligned, rfl, hbusy, .inl hp⟩
      exact ⟨_, access_write_accepted r data s hmapped hctrl hro' hl hfree, .inr ⟨rfl, rfl⟩,
        .inl (accessWrite_busErr _ data s)⟩

end Descriptor

/-- The access is rejected with the first cause that applies to it (R241, R242). -/
theorem access_of_firstCause (c : BusCause) (d : Descriptor) (s : State)
    (hcap : Config.legalSeedCap s.seedCap = true) (h : FirstCause c d s) :
    access d.off (2 ^ d.sz.toNat) d.w d.data s =
      .next (rejectedState (causeCode c) d.off d.w s) := by
  obtain ⟨hc, hfirst⟩ := h
  rw [← raiseBusError_eq]
  cases c with
  | misaligned => exact access_of_misaligned d s hc
  | unmapped => exact access_of_unmapped d s hc
  | readOnly =>
    exact access_of_readOnly d s hcap (hfirst .misaligned (by decide))
      (hfirst .unmapped (by decide)) hc
  | illegalValue =>
    exact access_of_illegalValue d s hcap (hfirst .misaligned (by decide))
      (hfirst .unmapped (by decide)) (hfirst .readOnly (by decide)) hc
  | busy =>
    exact access_of_busy d s hcap (hfirst .misaligned (by decide)) (hfirst .unmapped (by decide))
      (hfirst .readOnly (by decide)) (hfirst .illegalValue (by decide)) hc

/-- Settles O13: performing the descriptor is the access function at its fields, which rejects with
the first cause that applies and accepts where none does. -/
theorem firstCauseThatAppliesIsRecorded : Obligations.FirstCauseThatAppliesIsRecorded := by
  intro s d hcap herr
  rw [runDecoded_decodeDescriptor d s hcap herr]
  refine ⟨fun c hc hfirst => access_of_firstCause c d s hcap ⟨hc, hfirst⟩, fun hnone => ?_⟩
  obtain ⟨t, ht, hresp, hbuserr⟩ := access_of_no_cause d s hcap (hnone _) (hnone _) (hnone _)
    (hnone _) (hnone _)
  exact ⟨t, ht, hresp, hbuserr⟩

/-! ### The state after a rejected access -/

/-- A word that is performed spells a transaction (R102). -/
theorem descriptorError_of_performed (s t : State) (d : Descriptor)
    (h : runDecoded (decodeDescriptor s.seedCap d) s = .next t) : descriptorError d = none := by
  refine Option.eq_none_iff_forall_ne_some.mpr fun e he => ?_
  rw [(decodeDescriptor_invalid_iff s.seedCap d e).mpr he] at h
  cases h

/-- The offset of a word is its bits 43 to 32 (R102). -/
theorem descriptorOfBits_off (w : BitVec 48) :
    (descriptorOfBits w).off = BitVec.ofNat 12 (w.toNat / 2 ^ 32) := by
  rw [← Nat.shiftRight_eq_div_pow]
  rfl

/-- Settles O14: where no cause applies the response is OKAY, and the first cause that applies gives
the rejected state. -/
theorem busErrorsArePrecise : Obligations.BusErrorsArePrecise := by
  intro s t w hcap h hslverr
  have herr := descriptorError_of_performed s t (descriptorOfBits w) h
  obtain ⟨hrejects, haccepts⟩ :=
    firstCauseThatAppliesIsRecorded s (descriptorOfBits w) hcap herr
  rcases firstCause_or_none (descriptorOfBits w) s with ⟨c, hc, hfirst⟩ | hnone
  · obtain ⟨hlo, hhi⟩ := causeCode_range c
    have ht := Host.Outcome.next.inj (h.symm.trans (hrejects c hc hfirst))
    exact ⟨causeCode c, hlo, hhi, by rw [ht, descriptorOfBits_off]; rfl⟩
  · obtain ⟨u, hu, hresp, -⟩ := haccepts hnone
    obtain rfl := Host.Outcome.next.inj (h.symm.trans hu)
    rcases hresp with ⟨x, -, hokay⟩ | ⟨-, hokay⟩ <;> simp [hokay] at hslverr

end Sys2Proof.Machine
end

section
/-! SUPPORT. A step by what is performed: the controller's step, no event, or the one event that the
first arrival is; and the outcomes from a legal state (spec/00_scope.md R15, spec/60_exceptions.md
R246). -/

namespace Sys2Proof.Machine

/-! ### What the next step performs -/

/-- What reaches the engine is a transaction word, a query word or a reset (R72, R83). -/
theorem arrivesAs_cases (base : Nat) (a e : Event) (h : arrivesAs base a = some e) :
    (∃ w, e = .transaction w) ∨ (∃ w, e = .query w) ∨ e = .reset := by
  cases a with
  | access b =>
    obtain ⟨w, -, rfl⟩ := Option.map_eq_some_iff.mp h
    exact .inl ⟨w, rfl⟩
  | transaction w => cases h; exact .inl ⟨w, rfl⟩
  | query w => cases h; exact .inr (.inl ⟨w, rfl⟩)
  | reset => cases h; exact .inr (.inr rfl)

/-- An arrival is performed as what it arrives as (R72). -/
theorem performEvent_of_arrivesAs (a e : Event) (s : State) (h : arrivesAs s.base a = some e) :
    performEvent a s = performEvent e s := by
  cases a with
  | access b =>
    obtain ⟨w, hw, rfl⟩ := Option.map_eq_some_iff.mp h
    exact performEvent_access_of_word b w s hw
  | _ => cases h; rfl

/-- An arrival that never reaches the engine passes (R83). -/
theorem performEvent_of_arrivesAs_none (a : Event) (s : State) (h : arrivesAs s.base a = none) :
    performEvent a s = .next s := by
  cases a with
  | access b => exact performEvent_access_of_none b s (Option.map_eq_none_iff.mp h)
  | _ => cases h

/-- A step that performs an event performs no other. -/
theorem performsNext_iff (s : State) (e f : Event) (he : performsNext e s) :
    performsNext f s ↔ e = f := by
  refine ⟨?_, fun h => h ▸ he⟩
  rintro ⟨-, b, hb, hbf⟩
  obtain ⟨-, a, ha, hae⟩ := he
  obtain rfl := Option.some.inj (ha.symm.trans hb)
  exact Option.some.inj (hae.symm.trans hbf)

theorem not_performsNext_of_controller (s : State) (e : Event) (ha : nextAgent s = .controller) :
    ¬ performsNext e s := by
  rintro ⟨hhost, -⟩
  rw [ha] at hhost; cases hhost

/-- What performs the next step of a well-formed engine, and on which state. -/
inductive StepPerforms (s : State) : Prop where
  | controller (ha : nextAgent s = .controller)
      (h : step s = controllerStep { s with schedule := s.schedule.tail })
  | nothing (ha : nextAgent s = .host) (hno : ∀ e, ¬ performsNext e s) (es : List Event)
      (h : step s = .next { s with events := es, schedule := s.schedule.tail })
  | event (e : Event) (he : performsNext e s) (rest : List Event)
      (h : step s = performEvent e { s with events := rest, schedule := s.schedule.tail })

theorem step_performs (s : State) (hcap : Config.legalSeedCap s.seedCap = true) :
    StepPerforms s := by
  cases ha : nextAgent s with
  | controller => exact .controller ha (step_of_nextAgent s .controller hcap ha)
  | host =>
    cases he : s.events with
    | nil =>
      refine .nothing ha ?_ s.events ?_
      · rintro e ⟨-, a, hhead, -⟩
        rw [he] at hhead; cases hhead
      · exact (step_of_nextAgent s .host hcap ha).trans (hostStep_of_events_nil _ he)
    | cons a rest =>
      have hstep := step_of_arrival s a rest hcap ha he
      have hhead : s.events.head? = some a := by rw [he, List.head?_cons]
      cases harr : arrivesAs s.base a with
      | none =>
        refine .nothing ha ?_ rest (hstep.trans (performEvent_of_arrivesAs_none a _ harr))
        rintro e ⟨-, b, hb, hbe⟩
        obtain rfl := Option.some.inj (hhead.symm.trans hb)
        rw [harr] at hbe; cases hbe
      | some e =>
        exact .event e ⟨ha, a, hhead, harr⟩ rest
          (hstep.trans (performEvent_of_arrivesAs a e _ harr))

/-! ### The outcomes from a legal state -/

/-- At the positions of R52 the controller's step is enabled: a PERMUTE's round is below 90. -/
theorem controllerStep_answers (s : State) (h : ControllerLegal s) :
    ∃ t, controllerStep s = .next t := by
  cases hp : s.phase with
  | idle => exact ⟨_, controllerStep_of_idle s hp⟩
  | hash => exact ⟨_, controllerStep_of_hash s hp⟩
  | pivot => exact ⟨_, controllerStep_of_pivot s hp (h.permute (.inl hp)).round⟩
  | source => exact ⟨_, controllerStep_of_source s hp (h.permute (.inr hp)).round⟩

/-- What a frame decodes to answers a next state, or the frame spells nothing and is refused. -/
theorem runDecoded_answers (d : Decoded) (s : State) :
    (∃ t, runDecoded d s = .next t) ∨
      ∃ why, runDecoded d s = .refused (.spellsNothing why) ∧ d = .invalid why := by
  cases d with
  | instr i =>
    obtain ⟨t, ht, -⟩ := exec_effect i s
    exact .inl ⟨t, ht⟩
  | busError c off w => exact .inl ⟨_, rfl⟩
  | invalid why => exact .inr ⟨why, rfl, rfl⟩

/-- Settles O44: the invariant enables the controller's step, and an event is refused only where its
frame spells nothing. -/
theorem legalStatesNeverFault : Obligations.LegalStatesNeverFault := by
  intro s hs
  cases step_performs s hs.registers.cap with
  | controller ha h =>
    rw [h]
    exact .inl (controllerStep_answers _ (engineInv_of_arrivals s s.events _ hs).controller)
  | nothing ha hno es h => exact .inl ⟨_, h⟩
  | event e he rest h =>
    rw [h]
    have ⟨_, a, _, harr⟩ := he
    rcases arrivesAs_cases _ a e harr with ⟨w, rfl⟩ | ⟨w, rfl⟩ | rfl
    · refine (runDecoded_answers (decode s.seedCap (.td48 w)) _).imp_right ?_
      rintro ⟨why, hrun, hdec⟩
      exact ⟨why, hrun, .inl ⟨w, he, hdec⟩⟩
    · refine (runDecoded_answers (decode s.seedCap (.dq42 w)) _).imp_right ?_
      rintro ⟨why, hrun, hdec⟩
      exact ⟨why, hrun, .inr ⟨w, he, hdec⟩⟩
    · exact .inl ⟨_, rfl⟩

end Sys2Proof.Machine
end

section
/-! SUPPORT. What a step does to `IRQ_STATUS.PEND`: it is set by a completion and by a PERMUTE that
fails, cleared by `ack`, SOFT_RESET and reset, and otherwise stays (spec/60_exceptions.md R250). -/

namespace Sys2Proof.Machine

/-! ### Setting and clearing -/

/-- Between `s` and `t` a clear `PEND` is set exactly under `sets`, and a set `PEND` is cleared
exactly under `clears`. -/
structure PendChange (s t : State) (sets clears : Prop) : Prop where
  set : s.irqPend = false → (t.irqPend = true ↔ sets)
  clear : s.irqPend = true → (t.irqPend = false ↔ clears)

section PendChange

variable {s t : State} {sets clears sets' clears' : Prop}

theorem PendChange.congr (h : PendChange s t sets clears) (hsets : sets ↔ sets')
    (hclears : clears ↔ clears') : PendChange s t sets' clears' :=
  ⟨fun hs => (h.set hs).trans hsets, fun hs => (h.clear hs).trans hclears⟩

/-- What is taken off the schedule and the events before a step does not touch `PEND`. -/
theorem PendChange.before (es : List Event) (sch : List Agent)
    (h : PendChange { s with events := es, schedule := sch } t sets clears) :
    PendChange s t sets clears := ⟨h.set, h.clear⟩

theorem pendChange_of_same (h : t.irqPend = s.irqPend) (hsets : ¬ sets) (hclears : ¬ clears) :
    PendChange s t sets clears := by
  constructor <;> intro hs <;> simp [h, hs, hsets, hclears]

theorem pendChange_of_set (h : t.irqPend = true) (hsets : sets) (hclears : ¬ clears) :
    PendChange s t sets clears := by
  constructor <;> intro <;> simp [h, hsets, hclears]

theorem pendChange_of_clear (h : t.irqPend = false) (hsets : ¬ sets) (hclears : clears) :
    PendChange s t sets clears := by
  constructor <;> intro <;> simp [h, hsets, hclears]

end PendChange

/-! ### Instructions -/

/-- A PERMUTE now would be executed and fail one of its checks (R161, R245). -/
def PermuteFails (s : State) : Prop :=
  s.status.busy = false ∧ (s.listSize.toNat ≤ s.index.toNat ∨ 2 ^ 40 < s.listSize.toNat)

theorem operandWrite_irqPend (s t : State) (h : OperandWrite s t) : t.irqPend = s.irqPend := by
  cases h <;> rfl

/-- Three instructions can write `PEND` (R207, R212, R245). -/
theorem execEffect_irqPend (s t : State) (i : Instr) (h : ExecEffect s i t) :
    t.irqPend = s.irqPend ∨ i = .permute ∨ (∃ d, i = .wrIrqStatus d) ∨ i = .softReset := by
  cases h with
  | written i u hu hb => exact .inl (operandWrite_irqPend s u hu)
  | irqStatus d hd => exact .inr (.inr (.inl ⟨d, rfl⟩))
  | softReset => exact .inr (.inr (.inr rfl))
  | permuteFails e hb he => exact .inr (.inl rfl)
  | _ => exact .inl rfl

/-- A PERMUTE sets `PEND` where it fails, and does not write it otherwise (R163, R245, R250). -/
theorem exec_permute_pend (s : State) :
    ∃ t, exec .permute s = .next t ∧ PendChange s t (PermuteFails s) False := by
  cases hb : s.status.busy with
  | true =>
    exact ⟨_, exec_permute_of_busy s hb,
      pendChange_of_same rfl (fun hf => absurd (hb.symm.trans hf.1) nofun) id⟩
  | false =>
    rcases permuteError_cases s with ⟨hle, he⟩ | ⟨-, hbig, he⟩ | ⟨hlt, hle, he⟩
    · exact ⟨_, exec_permute_fails s _ hb he, pendChange_of_set rfl ⟨hb, .inl hle⟩ id⟩
    · exact ⟨_, exec_permute_fails s _ hb he, pendChange_of_set rfl ⟨hb, .inr hbig⟩ id⟩
    · exact ⟨_, exec_permute_starts s hb he,
        pendChange_of_same rfl (fun hf => by obtain ⟨-, h⟩ := hf; omega) id⟩

/-- An `IRQ_STATUS` write clears `PEND` where its value is 1, the `ack` (R212). -/
theorem exec_wrIrqStatus_pend (data : Word) (s : State) :
    ∃ t, exec (.wrIrqStatus data) s = .next t ∧ PendChange s t False (data = 1#32) := by
  by_cases hl : legalFlag data = true
  · refine ⟨_, exec_wrIrqStatus_of_legal data s hl, ?_⟩
    rw [getLsbD_zero_of_legalFlag data hl]
    by_cases h1 : data = 1#32
    · exact pendChange_of_clear (by simp [h1]) id h1
    · exact pendChange_of_same (by simp [h1]) id h1
  · refine ⟨_, exec_wrIrqStatus_of_illegal data s hl, pendChange_of_same rfl id ?_⟩
    rintro rfl
    exact hl rfl

/-- What an instruction does to `PEND` (R250). -/
theorem exec_pendChange (i : Instr) (s t : State) (h : exec i s = .next t) :
    PendChange s t (i = .permute ∧ PermuteFails s)
      (i = .wrIrqStatus 1#32 ∨ i = .softReset) := by
  have hout (u : State) (hu : exec i s = .next u) : u = t :=
    Host.Outcome.next.inj (hu.symm.trans h)
  by_cases hp : i = .permute
  · subst hp
    obtain ⟨u, hu, hpend⟩ := exec_permute_pend s
    exact hout u hu ▸ hpend.congr (by simp) (by simp)
  by_cases ha : ∃ d, i = .wrIrqStatus d
  · obtain ⟨d, rfl⟩ := ha
    obtain ⟨u, hu, hpend⟩ := exec_wrIrqStatus_pend d s
    exact hout u hu ▸ hpend.congr (by simp) (by simp)
  by_cases hr : i = .softReset
  · subst hr
    exact pendChange_of_clear (hout _ rfl ▸ rfl) (by simp) (.inr rfl)
  have hsame : t.irqPend = s.irqPend := by
    simpa [hp, ha, hr] using execEffect_irqPend s t i (exec_cases i s t h)
  exact pendChange_of_same hsame (fun hf => hp hf.1)
    (fun hc => hc.elim (fun h1 => ha ⟨_, h1⟩) hr)

/-! ### Events -/

/-- A decoding changes `PEND` as its instruction does; a bus error never does (R250). -/
theorem runDecoded_pendChange (d : Decoded) (s t : State) (h : runDecoded d s = .next t) :
    PendChange s t (d = .instr .permute ∧ PermuteFails s)
      (d = .instr (.wrIrqStatus 1#32) ∨ d = .instr .softReset) := by
  cases d with
  | instr i => exact (exec_pendChange i s t h).congr (by simp) (by simp)
  | busError c off w =>
    obtain rfl := Host.Outcome.next.inj h
    exact pendChange_of_same rfl (by simp) (by simp)
  | invalid why => cases h

/-- A frame decodes to a well-formed instruction exactly when it is that instruction's frame. -/
theorem decode_eq_instr_iff (cap : Nat) (f : Frame) (i : Instr)
    (hcap : Config.legalSeedCap cap = true) (hwf : i.wellFormed cap = true) :
    decode cap f = .instr i ↔ f = encode i := by
  refine ⟨fun h => (encodeInvertsDecode cap f i hcap h).symm, ?_⟩
  rintro rfl
  exact decodeInvertsEncode cap i hcap hwf

/-- The word of `ack` is its header at `IRQ_STATUS` and the value 1 (R110, R212). -/
theorem encode_ack : encode (.wrIrqStatus 1#32) = .td48 0xC03000000001#48 :=
  (writeFrame_eq_header .irqStatus 1#32 0xC030#16 rfl).symm

theorem encode_softReset : encode .softReset = .td48 0xC00800000003#48 :=
  (writeFrame_eq_header .ctrl 3#32 0xC008#16 rfl).symm

/-- What a transaction word does to `PEND` (R250). -/
theorem transaction_pendChange (w : BitVec 48) (s t : State)
    (h : performEvent (.transaction w) s = .next t)
    (hcap : Config.legalSeedCap s.seedCap = true) :
    PendChange s t (w = 0xC00800000001#48 ∧ PermuteFails s)
      (w = 0xC03000000001#48 ∨ w = 0xC00800000003#48) := by
  refine (runDecoded_pendChange _ s t h).congr ?_ ?_
  · rw [decode_eq_instr_iff _ _ _ hcap rfl, encode_permute, Frame.td48.injEq]
  · rw [decode_eq_instr_iff _ _ _ hcap rfl, decode_eq_instr_iff _ _ _ hcap rfl, encode_ack,
      encode_softReset, Frame.td48.injEq, Frame.td48.injEq]

/-- A query never changes `PEND`: it decodes to a query instruction (R103, R135). -/
theorem query_pendChange (w : BitVec 42) (s t : State) (h : performEvent (.query w) s = .next t) :
    PendChange s t False False := by
  refine (runDecoded_pendChange _ s t h).congr ?_ ?_ <;>
    rcases decodeQuery_cases (queryOfBits w) with hd | hd | hd | ⟨e, hd⟩ <;> simp [decode, hd]

/-! ### The controller -/

/-- A controller step sets `PEND` where it completes an operation and never clears it (R141,
R175). -/
theorem controllerEffect_pendChange (s t : State) (h : ControllerEffect s t) :
    PendChange s t ((s.phase = .source ∧ s.round = 89#7) ∨ s.phase = .hash) False := by
  cases h with
  | idle hp => exact pendChange_of_same rfl (by simp [hp]) id
  | hash hp => exact pendChange_of_set rfl (.inr hp) id
  | pivot hp hr => exact pendChange_of_same rfl (by simp [hp]) id
  | source hp hr =>
    have hround : s.round ≠ 89#7 := by rintro h; rw [h] at hr; exact absurd hr (by decide)
    exact pendChange_of_same rfl (by simp [hp, hround]) id
  | complete hp hr => exact pendChange_of_set rfl (.inl ⟨hp, BitVec.eq_of_toNat_eq hr⟩) id

/-! ### A step -/

/-- What a step does to `PEND` (R250). -/
theorem step_pendChange (s t : State) (h : step s = .next t) :
    PendChange s t
      (completesPermute s ∨ completesHash s ∨
        (performsNext (.transaction 0xC00800000001#48) s ∧ PermuteFails s))
      (performsNext (.transaction 0xC03000000001#48) s ∨
        performsNext (.transaction 0xC00800000003#48) s ∨ performsNext .reset s) := by
  have hcap := (step_cases s t h).1
  cases step_performs s hcap with
  | controller ha hstep =>
    have hno (e : Event) := not_performsNext_of_controller s e ha
    have hpend := controllerEffect_pendChange _ t (controllerStep_cases _ t (hstep.symm.trans h))
    refine (hpend.before s.events _).congr ?_ ?_
    · simp [completesPermute, completesHash, ha, hno]
    · simp [hno]
  | nothing ha hno es hstep =>
    obtain rfl := Host.Outcome.next.inj (hstep.symm.trans h)
    refine pendChange_of_same rfl ?_ ?_
    · simp [completesPermute, completesHash, ha, hno]
    · simp [hno]
  | event e he rest hstep =>
    have ⟨ha, a, _, harr⟩ := he
    have hiff (f : Event) := performsNext_iff s e f he
    have hrun := hstep.symm.trans h
    rcases arrivesAs_cases _ a e harr with ⟨w, rfl⟩ | ⟨w, rfl⟩ | rfl
    · refine ((transaction_pendChange w _ t hrun hcap).before rest _).congr ?_ ?_
      · simp [completesPermute, completesHash, ha, hiff, PermuteFails, State.index, State.listSize]
      · simp [hiff]
    · refine ((query_pendChange w _ t hrun).before rest _).congr ?_ ?_
      · simp [completesPermute, completesHash, ha, hiff]
      · simp [hiff]
    · obtain rfl := Host.Outcome.next.inj hrun
      refine pendChange_of_clear rfl ?_ ?_
      · simp [completesPermute, completesHash, ha, hiff]
      · simp [hiff]

/-- Settles O48: the two equivalences are the two parts of `step_pendChange`. -/
theorem pendingIsSetAtThreeEvents : Obligations.PendingIsSetAtThreeEvents := by
  intro s t h
  obtain ⟨hset, hclear⟩ := step_pendChange s t h
  exact ⟨hset, hclear⟩

end Sys2Proof.Machine
end

section
/-! SUPPORT. The state after reset (spec/70_reset_and_hazards.md R280, R281): the registers that
read 0, the step of the reset input, and the invariant of the engine. -/

namespace Sys2Proof.Machine

/-! ### The reset values -/

/-- The registers whose reset value is 0: all but the two that name the engine and the seed window
(R281). -/
def resetsToZero : Reg → Bool
  | .id | .params | .seed _ => false
  | _ => true

theorem readValue_afterReset (r : Reg) (page cap resets : Nat) (h : resetsToZero r = true) :
    readValue r (State.afterReset page cap resets) = 0#32 := by
  cases r with
  | id => cases h
  | params => cases h
  | seed j => cases h
  | status => exact (by decide : Status.zero.word = 0#32)
  | irqEn => exact (by decide : flagWord false = 0#32)
  | irqStatus => exact (by decide : flagWord false = 0#32)
  | busErr => exact (by decide : BusErr.zero.word = 0#32)
  | digest k => exact Vector.getElem_replicate k.isLt
  | _ => rfl

/-- Settles O9: the registers that reset to 0 by `readValue_afterReset`, `PARAMS` as its number, the
seed buffer as its draws, and every other element as `State.afterReset` gives it. -/
theorem resetValues : Obligations.ResetValues := by
  refine ⟨rfl, by decide, fun page cap resets => ?_⟩
  have zero (r : Reg) (h : resetsToZero r = true) := readValue_afterReset r page cap resets h
  have hparams (hcap : cap < 4096) :
      (readValue .params (State.afterReset page cap resets)).toNat =
        40 * 2 ^ 20 + cap * 2 ^ 8 + 90 :=
    (paramsWord_toNat cap hcap).trans (by omega)
  exact ⟨rfl, rfl, hparams, zero .status rfl, rfl, rfl, rfl, rfl, rfl, rfl,
    zero .indexLo rfl, zero .indexHi rfl, zero .listSizeLo rfl, zero .listSizeHi rfl,
    zero .seedLen rfl, zero .resultLo rfl, zero .resultHi rfl, rfl, zero .irqEn rfl,
    rfl, zero .irqStatus rfl, rfl, zero .busErr rfl, fun k => zero (.digest k) rfl,
    drawnSeed_length cap resets, readSeed_drawn cap resets, rfl, rfl, rfl, rfl, rfl, rfl, rfl, rfl⟩

/-! ### The reset input -/

/-- Settles O10: the step performs the reset input on the state with this arrival and the schedule's
entry taken off. -/
theorem hardwareResetFromAnyState : Obligations.HardwareResetFromAnyState := by
  intro s rest hcap ha he
  have hstep : step s =
      .next (hardwareReset { s with events := rest, schedule := s.schedule.tail }) :=
    step_of_arrival s .reset rest hcap ha he
  exact ⟨_, hstep, rfl, rfl⟩

/-! ### The invariant -/

/-- After reset the registers are legal and the controller is idle (R281). -/
theorem afterReset_engineInv (page cap resets : Nat) (hcap : Config.legalSeedCap cap = true) :
    EngineInv (State.afterReset page cap resets) where
  registers := ⟨hcap, drawnSeed_length _ _, Nat.zero_le _, statusLegal_zero, busErrLegal_zero,
    (by decide : (0#32).toNat < 2 ^ 8)⟩
  controller := controllerLegal_of_idle _ rfl rfl

/-- Settles O42: `State.reset` is the state after the reset number 0 of the default `SEED_CAP`. -/
theorem resetIsLegal : Obligations.ResetIsLegal :=
  ⟨afterReset_engineInv Config.platformPage Config.defaultSeedCap 0 (by decide),
    afterReset_engineInv⟩

end Sys2Proof.Machine
end

section
/-! SUPPORT. A running operation ends (spec/70_reset_and_hazards.md R300): every step of a legal
busy engine takes an entry off the schedule or one off the steps that the controller has left. -/

namespace Sys2Proof.Machine

/-! ### What is still to arrive -/

/-- Every transaction and every query still to arrive spells something (R102, R103). -/
structure ArrivalsSpell (s : State) : Prop where
  transactions : ∀ w, Event.transaction w ∈ s.events →
    ∀ why, decode s.seedCap (.td48 w) ≠ .invalid why
  queries : ∀ w, Event.query w ∈ s.events → ∀ why, decode s.seedCap (.dq42 w) ≠ .invalid why

/-- The word of a bus access always spells a transaction (R72, R102). -/
theorem decode_busWord_ne_invalid (base cap : Nat) (a : BusAccess) (w : BitVec 48)
    (h : busWord base a = some w) (why : FrameError) : decode cap (.td48 w) ≠ .invalid why := by
  obtain ⟨off, -, rfl⟩ := Option.map_eq_some_iff.mp h
  intro hdec
  rw [decode_descriptorBits, decodeDescriptor_invalid_iff, descriptorError_busDescriptor] at hdec
  cases hdec

/-- A legal engine whose arrivals spell something has a next state (R246). -/
theorem step_answers (s : State) (hs : EngineInv s) (hspell : ArrivalsSpell s) :
    ∃ t, step s = .next t := by
  rcases legalStatesNeverFault s hs with hnext |
    ⟨why, -, ⟨w, ⟨-, a, ha, harr⟩, hdec⟩ | ⟨w, ⟨-, a, ha, harr⟩, hdec⟩⟩
  · exact hnext
  · have hmem : a ∈ s.events := List.mem_of_head? ha
    cases a with
    | access b =>
      obtain ⟨v, hv, hvw⟩ := Option.map_eq_some_iff.mp harr
      obtain rfl : v = w := Event.transaction.inj hvw
      exact absurd hdec (decode_busWord_ne_invalid _ _ b v hv why)
    | transaction v => cases harr; exact absurd hdec (hspell.transactions _ hmem why)
    | query v => cases harr
    | reset => cases harr
  · have hmem : a ∈ s.events := List.mem_of_head? ha
    cases a with
    | access b =>
      obtain ⟨v, -, hvw⟩ := Option.map_eq_some_iff.mp harr
      cases hvw
    | transaction v => cases harr
    | query v => cases harr; exact absurd hdec (hspell.queries _ hmem why)
    | reset => cases harr

/-- No effect writes what is still to arrive or the schedule, which are not part of the engine. -/
structure SameArrivals (s t : State) : Prop where
  events : t.events = s.events
  schedule : t.schedule = s.schedule

theorem execEffect_sameArrivals (s t : State) (i : Instr) (h : ExecEffect s i t) :
    SameArrivals s t := by
  cases h with
  | written i u hu hb => cases hu <;> exact ⟨rfl, rfl⟩
  | _ => exact ⟨rfl, rfl⟩

theorem eventEffect_sameArrivals (s t : State) (e : Event) (h : EventEffect s e t) :
    SameArrivals s t := by
  cases h with
  | transaction w i t hd he => exact execEffect_sameArrivals s t i he
  | _ => exact ⟨rfl, rfl⟩

theorem controllerEffect_sameArrivals (s t : State) (h : ControllerEffect s t) :
    SameArrivals s t := by
  cases h <;> exact ⟨rfl, rfl⟩

/-- A step takes the schedule's first entry off and lets nothing new arrive. -/
theorem stepEffect_arrivals (s t : State) (h : StepEffect s t) :
    t.schedule = s.schedule.tail ∧ t.events ⊆ s.events := by
  cases h with
  | controller t ha he =>
    obtain ⟨hevents, hschedule⟩ := controllerEffect_sameArrivals _ t he
    exact ⟨hschedule, hevents ▸ List.Subset.refl _⟩
  | nothing ha he => exact ⟨rfl, List.Subset.refl _⟩
  | passes a rest ha he hr => exact ⟨rfl, he ▸ List.subset_cons_self a rest⟩
  | performs a e rest t ha he hr hx =>
    obtain ⟨hevents, hschedule⟩ := eventEffect_sameArrivals _ t e hx
    exact ⟨hschedule, hevents ▸ he ▸ List.subset_cons_self a rest⟩

theorem ArrivalsSpell.after_step {s t : State} (hspell : ArrivalsSpell s) (h : StepEffect s t) :
    ArrivalsSpell t := by
  obtain ⟨-, hsub⟩ := stepEffect_arrivals s t h
  obtain ⟨-, hcap⟩ := stepEffect_sameParameters s t h
  exact ⟨fun w hw => hcap ▸ hspell.transactions w (hsub hw),
    fun w hw => hcap ▸ hspell.queries w (hsub hw)⟩

/-! ### What the controller has left -/

/-- The controller steps from a position of R52 to the end of the operation: one of a HASH, two a
round of a PERMUTE. -/
def controllerStepsLeft (s : State) : Nat :=
  match s.phase with
  | .idle => 0
  | .hash => 1
  | .pivot => 2 * (90 - s.round.toNat)
  | .source => 2 * (89 - s.round.toNat) + 1

theorem controllerStepsLeft_le (s : State) : controllerStepsLeft s ≤ 180 := by
  unfold controllerStepsLeft
  split <;> omega

theorem controllerStepsLeft_of_idle (s : State) (h : s.phase = .idle) :
    controllerStepsLeft s = 0 := by
  simp only [controllerStepsLeft, h]

theorem controllerStepsLeft_of_hash (s : State) (h : s.phase = .hash) :
    controllerStepsLeft s = 1 := by
  simp only [controllerStepsLeft, h]

theorem controllerStepsLeft_of_pivot (s : State) (h : s.phase = .pivot) :
    controllerStepsLeft s = 2 * (90 - s.round.toNat) := by
  simp only [controllerStepsLeft, h]

theorem controllerStepsLeft_of_source (s : State) (h : s.phase = .source) :
    controllerStepsLeft s = 2 * (89 - s.round.toNat) + 1 := by
  simp only [controllerStepsLeft, h]

/-- A controller step of a running operation is one of the steps it has left (R141, R170, R171). -/
theorem controllerEffect_stepsLeft (s t : State) (h : ControllerEffect s t)
    (hp : s.phase ≠ .idle) : controllerStepsLeft t + 1 = controllerStepsLeft s := by
  cases h with
  | idle hidle => exact absurd hidle hp
  | hash hhash =>
    rw [controllerStepsLeft_of_hash s hhash, controllerStepsLeft_of_idle _ rfl]
  | pivot hpivot hr =>
    have hround : (pivotStep s).round = s.round := rfl
    rw [controllerStepsLeft_of_pivot s hpivot, controllerStepsLeft_of_source _ rfl, hround]
    omega
  | source hsource hr =>
    rw [controllerStepsLeft_of_source s hsource, controllerStepsLeft_of_pivot _ rfl]
    have hround := round_succ_toNat s.round (by omega)
    exact (congrArg (fun r => 2 * (90 - r) + 1) hround).trans (by omega)
  | complete hsource hr =>
    rw [controllerStepsLeft_of_source s hsource, controllerStepsLeft_of_idle _ rfl, hr]

/-- While an operation runs, an instruction leaves the controller where it stands or ends the
operation (R200, R207). -/
theorem execEffect_stepsLeft (s t : State) (i : Instr) (h : ExecEffect s i t)
    (hb : s.status.busy = true) : controllerStepsLeft t ≤ controllerStepsLeft s := by
  cases h with
  | softReset => exact (controllerStepsLeft_of_idle _ rfl).trans_le (Nat.zero_le _)
  | written i u hu hfree => rw [hfree] at hb; cases hb
  | permuteFails e hfree he => rw [hfree] at hb; cases hb
  | permuteStarts hfree he => rw [hfree] at hb; cases hb
  | hashStarts hfree => rw [hfree] at hb; cases hb
  | _ => exact Nat.le_refl _

theorem eventEffect_stepsLeft (s t : State) (e : Event) (h : EventEffect s e t)
    (hb : s.status.busy = true) : controllerStepsLeft t ≤ controllerStepsLeft s := by
  cases h with
  | reset => exact (controllerStepsLeft_of_idle _ rfl).trans_le (Nat.zero_le _)
  | transaction w i t hd he => exact execEffect_stepsLeft s t i he hb
  | _ => exact Nat.le_refl _

/-! ### A step of a running operation -/

/-- The steps within which a running operation ends: those the schedule names and those the
controller has left. -/
def stepsToEnd (s : State) : Nat := s.schedule.length + controllerStepsLeft s

/-- While an operation runs, the host steps only where the schedule names it (log entry 4). -/
theorem schedule_tail_length_lt_of_host (s : State) (hp : s.phase ≠ .idle)
    (ha : nextAgent s = .host) : s.schedule.tail.length < s.schedule.length := by
  cases hsch : s.schedule with
  | nil =>
    rw [nextAgent_of_running s hsch hp] at ha
    cases ha
  | cons a rest => exact Nat.lt_succ_self _

/-- Each step of a running operation brings its end nearer (R15, R300). -/
theorem stepEffect_stepsToEnd (s t : State) (h : StepEffect s t) (hp : s.phase ≠ .idle)
    (hb : s.status.busy = true) : stepsToEnd t < stepsToEnd s := by
  obtain ⟨hschedule, -⟩ := stepEffect_arrivals s t h
  rw [stepsToEnd, stepsToEnd, hschedule]
  cases h with
  | controller t ha he =>
    have hleft : controllerStepsLeft t + 1 = controllerStepsLeft s :=
      controllerEffect_stepsLeft { s with schedule := s.schedule.tail } t he hp
    have htail : s.schedule.tail.length ≤ s.schedule.length := by simp
    omega
  | nothing ha he => exact Nat.add_lt_add_right (schedule_tail_length_lt_of_host s hp ha) _
  | passes a rest ha he hr => exact Nat.add_lt_add_right (schedule_tail_length_lt_of_host s hp ha) _
  | performs a e rest t ha he hr hx =>
    exact Nat.add_lt_add_of_lt_of_le (schedule_tail_length_lt_of_host s hp ha)
      (eventEffect_stepsLeft { s with schedule := s.schedule.tail, events := rest } t e hx hb)

/-! ### The run -/

/-- A run that begins with a step goes on from where the step leads. -/
theorem run_of_step (M : Host.Core) (k : Nat) (s t : M.State) (h : M.step s = .next t) :
    M.run (k + 1) s = M.run k t := by
  rw [Host.Core.run, h]

/-- From a legal engine whose arrivals spell something a run leads to BUSY 0: there at once, or
after one step and the run from there. -/
theorem run_ends (s : State) (hs : EngineInv s) (hspell : ArrivalsSpell s) :
    ∃ k, k ≤ stepsToEnd s ∧ ∃ t : State, Host.Core.run Sys2Proof.core k s = .next t ∧
      t.status.busy = false := by
  cases hb : s.status.busy with
  | false => exact ⟨0, Nat.zero_le _, s, rfl, hb⟩
  | true =>
    obtain ⟨t, hstep⟩ := step_answers s hs hspell
    have heffect := (step_cases s t hstep).2
    have hless := stepEffect_stepsToEnd s t heffect (hs.controller.busy.mp hb) hb
    obtain ⟨k, hk, u, hrun, hu⟩ := run_ends t (everyStepKeepsTheEngineLegal s t hs hstep)
      (hspell.after_step heffect)
    exact ⟨k + 1, by omega, u, (run_of_step Sys2Proof.core k s t hstep).trans hrun, hu⟩
termination_by stepsToEnd s

/-- Settles O45: `stepsToEnd` falls at every step until BUSY is 0, and at most 180 steps of it are
the controller's. -/
theorem everyOperationEnds : Obligations.EveryOperationEnds := by
  intro s hs _ htransactions hqueries
  obtain ⟨k, hk, hrun⟩ := run_ends s hs ⟨htransactions, hqueries⟩
  have hleft : stepsToEnd s ≤ s.schedule.length + 180 :=
    Nat.add_le_add_left (controllerStepsLeft_le s) s.schedule.length
  exact ⟨k, hk.trans hleft, hrun⟩

end Sys2Proof.Machine
end
